-- ==== Sys2Proof/Word.lean ====
section
/-! DEFINITION. The one word type of the part: the byte, as carried by frames, port messages and the
configuration image. Every other quantity of the manual is a count, an identity or a name and is modelled
as a `Nat`, an `Int` or an inductive type. -/

namespace Sys2Proof

/-- One byte of a frame's data, of a cell port message or of the configuration image. -/
abbrev Byte := BitVec 8

end Sys2Proof
end

