-- ==== Sys2Proof/Syntax.lean ====
section
/-! DEFINITION. The commands of the part: one constructor of `Instr` for each row of the table of operations
and events, with the data that the line, the port, the pin or the operator gives with it. The C640 is a block:
it fetches no program; these commands are what happens to it. -/

namespace Sys2Proof

/-- A temperature band of the handler (00, Terms). -/
inductive Band where
  | cold | room | hot
  deriving DecidableEq, Repr, Inhabited

/-- The ten hold kinds, in the order of R13. -/
inductive HoldKind where
  | yield | bin | sites | recon | setup | thermal | ident | restart | family | operator
  deriving DecidableEq, Repr, Inhabited

/-- The three dispositions (00, Terms; R145). -/
inductive Disposition where
  | resume | acceptCount | scrap
  deriving DecidableEq, Repr, Inhabited

/-- The subjects of STATUS (R186). -/
inductive StatusSubject where
  | lot | cell | link | family | released
  deriving DecidableEq, Repr, Inhabited

/-- Why the operator line itself refuses a line (R183, R184). -/
inductive Malformed where
  /-- more than 80 characters before the carriage return (R183) -/
  | tooLong
  /-- the first word is not a request name -/
  | unknownName
  /-- a STATUS line with a missing or surplus parameter, or a number that is not one -/
  | statusForm
  /-- any other request with a missing or surplus parameter, or a number that is not one -/
  | requestForm
  deriving DecidableEq, Repr, Inhabited

/-- The two cell ports (R113, R194). -/
inductive Port where
  | handler | tester
  deriving DecidableEq, Repr, Inhabited

/-- The two fault lines (11.4). -/
inductive FaultLine where
  | tester | handler
  deriving DecidableEq, Repr, Inhabited

/-- The data of one DOSSIER frame, by its key (R69, 11.1). Bands are carried as their codes. -/
inductive DossierSegment where
  /-- segment 1 -/
  | identity (lot product family priority entryQty routeLength nextInsertion disposedHolds segmentCount : Nat)
  /-- segment 2: the lot and four pairs of band code and program id -/
  | route (lot : Nat) (insertions : List (Nat × Nat))
  /-- segments 3 to 5, with the segment number of the key -/
  | summary (segment insertionNo station declared : Nat) (adj : Int) (good rejects voidFinal scrapped : Nat)
  /-- a DOSSIER frame whose key is no segment number -/
  | unnumbered (key : Nat)
  deriving DecidableEq, Repr, Inhabited

/-- The data of one OFFER frame (R44, 11.1). The band is carried as its code. -/
structure OfferFields where
  lot : Nat
  product : Nat
  family : Nat
  insertion : Nat
  priority : Nat
  units : Nat
  packageClass : Nat
  band : Nat
  program : Nat
  deriving DecidableEq, Repr, Inhabited

/-- The commands: one constructor per row of the opcode table, in the table's order. In the heard frames
`src` is the station field of the frame's identifier; the other operands are the frame's data fields. -/
inductive Instr where
  /-- POWER_ON, with the reading of STN[5:0] -/
  | powerOn (straps : BitVec 6)
  /-- IMAGE_LOADED, with the bytes of the configuration memory, or none when it acknowledged no attempt -/
  | imageLoaded (memory : Option (List Byte))
  | resetNAsserted
  /-- WARM_RESET, with the reading of STN[5:0] -/
  | warmReset (straps : BitVec 6)
  | enter (lot product qty family priority : Nat)
  | arrive (lot : Nat)
  | recall (lot : Nat)
  | reoffer (lot : Nat)
  | pauseWalk
  | continueWalk
  | abortSetup
  | preload (slot program : Nat)
  | evict (slot : Nat)
  | startCell
  | stopCell
  | abortTd
  | siteEnable (site : Nat)
  | siteDisable (site : Nat)
  | holdLot (lot : Nat)
  /-- DISPOSE; a word that names no kind, or no disposition, is none -/
  | dispose (lot : Nat) (kind : Option HoldKind) (disposition : Option Disposition)
  | purge (family lot : Nat)
  /-- STATUS; a word that names no subject is none -/
  | status (subject : Option StatusSubject) (lot : Option Nat)
  | restart
  | malformedRequest (why : Malformed)
  | lineDiscardedBusy
  | outgoingLineSent
  | sendAttempt
  | frameSent
  | arbitrationLost
  /-- TRANSMIT_ERROR; the flag says that a missing acknowledgement is its only cause (R34) -/
  | transmitError (onlyMissingAck : Bool)
  | receiveError
  | rejoin
  /-- FRAME_DISCARDED, with the class, kind and station fields of its identifier -/
  | frameDiscarded (cls kind src : Nat)
  | holdHeard (src family lot raiser : Nat)
  | clearHeard (src family lot raiser : Nat)
  | objectHeard (src lot reason objected : Nat)
  | awardHeard (src lot winner : Nat)
  | dossierHeard (src : Nat) (segment : DossierSegment)
  | acceptHeard (src lot offerer : Nat)
  | takeHeard (src lot offerer : Nat)
  | declineHeard (src lot offerer : Nat)
  | recallHeard (src lot winner : Nat)
  | offerHeard (src : Nat) (offer : OfferFields)
  | bidHeard (src lot offerer cost : Nat)
  | rollcallHeard (src : Nat)
  | intentHeard (src lot family : Nat)
  | shippedHeard (src lot family good : Nat)
  | disposeHeard (src lot kind disposition requester : Nat)
  | disposedHeard (src lot kind result requester : Nat)
  | reofferDeadline (lot : Nat)
  | bidWindowClose (lot : Nat)
  | bidRecordExpiry (lot : Nat)
  | acceptTimeout (lot : Nat)
  | arrivalTimeout (lot : Nat)
  | releaseRetryTime (lot : Nat)
  | releaseWindowClose (lot : Nat)
  | shippedRetry (lot : Nat)
  | rollcallRetry
  | rollcallWindowEnd
  | remoteAnswerTimeout
  | stepTimeout
  | selectionDeadline
  | operatorCommandTimeout
  | soakEnd
  | kitLinesChange (lines : BitVec 6)
  | kitTaken
  | testerFault
  | handlerFault
  | faultLineDeasserted (line : FaultLine)
  | testBusyChange (level : Bool)
  | loaded (slot : Nat)
  | loadFailed (slot : Nat)
  | cancelled (slot : Nat)
  | evicted (slot : Nat)
  | selected (slot : Nat)
  | checkPass
  | checkFail
  /-- AT_TEMP, with the band code -/
  | atTemp (band : Nat)
  | tempLost
  /-- TD_READY, with the occupied mask: bit s - 1 for site s -/
  | tdReady (occupied : BitVec 8)
  /-- TD_RESULT, with the sequence number and the bins of sites 1 to 8 -/
  | tdResult (sequence : Nat) (bins : List Nat)
  | sorted
  | tdTimeout
  | lotEmpty
  | portMessageDiscarded (port : Port)
  | joinLine
  | portLineIdle (port : Port)
  deriving DecidableEq, Repr, Inhabited

end Sys2Proof
end

