-- ==== Sys2Proof/Config.lean ====
section
/-! DEFINITION. The working copy of the configuration image (R188, R189, R193 to R195), the fixed sizes and
times the manual gives, and the free values: constants without a body, for the values the manual leaves open. -/

namespace Sys2Proof

/-! ## The working copy of the image -/

/-- The kinds of setup step (R94). -/
inductive StepKind where
  | loadProgram | setBand | confirmKit | correlate | waitOperator
  deriving DecidableEq, Repr, Inhabited

/-- A step record (R94). `kind` is none for a kind code that names no kind, whose estimate is then 0 (R189);
`next` is none for END. -/
structure StepRecord where
  kind : Option StepKind
  param : Nat
  estimate : Nat
  timeout : Nat
  next : Option Nat
  deriving DecidableEq, Repr, Inhabited

/-- One insertion of a recipe's route (10.4). `chainHead` is none for END. -/
structure RecipeInsertion where
  band : Band
  program : Nat
  chainHead : Option Nat
  nominalMs : Nat
  soakMinutes : Nat
  deriving DecidableEq, Repr, Inhabited

/-- One bin limit of a recipe (R140). -/
structure BinLimit where
  bin : Nat
  permille : Nat
  deriving DecidableEq, Repr, Inhabited

/-- The recipe of one product (10.4). -/
structure Recipe where
  product : Nat
  packageClass : Nat
  route : List RecipeInsertion
  goodBins : List Nat
  yieldLimit : Nat
  minSample : Nat
  binLimits : List BinLimit
  spreadLimit : Nat
  siteMinSample : Nat
  runLimit : Nat
  /-- YIELD is in the family-scope set -/
  familyYield : Bool
  /-- BIN is in the family-scope set -/
  familyBin : Bool
  deriving DecidableEq, Repr, Inhabited

/-- One entry of the interest filter (R33). -/
structure FilterEntry where
  value : BitVec 24
  mask : BitVec 24
  enabled : Bool
  deriving DecidableEq, Repr, Inhabited

/-- The working copy of the configuration image, after clamping (R189). Times are in the unit of R189. -/
structure WorkingCopy where
  /-- length of the image in bytes, as its header states -/
  imageLength : Nat
  /-- clamped count (R189) -/
  clamped : Nat
  /-- kbit/s -/
  bitRate : Nat
  bidWindow : Nat
  acceptTimeout : Nat
  /-- minutes -/
  arrivalTimeout : Nat
  reofferInterval : Nat
  attemptLimit : Nat
  releaseWindow : Nat
  rollcallWindow : Nat
  rejoinInterval : Nat
  remoteTimeout : Nat
  filters : List FilterEntry
  sitesFitted : Nat
  minSites : Nat
  bands : List Band
  slotCount : Nat
  /-- TEST_BUSY is active at the high level -/
  busyActiveHigh : Bool
  /-- seconds, from COLD, ROOM and HOT in turn, each to COLD, ROOM and HOT -/
  transition : List Nat
  recipes : List Recipe
  steps : List StepRecord
  deriving DecidableEq, Repr, Inhabited

/-- No image has been read: nothing is fitted, no product is known. Held until an image passes its checks. The four
filter entries and the bit rate, which STATUS LINK shows in CONFIG_FAULT too (R39), stand as an image of zero bytes would
be clamped: disabled, and 125 kbit/s (DESIGN CHOICE, log 51: the manual gives them no value before an image is kept). The minimum
sites and the count of clamped values, which STATUS CELL shows in CONFIG_FAULT, stand at 0 (DESIGN CHOICE, log 93: likewise). -/
def WorkingCopy.blank : WorkingCopy where
  imageLength := 0
  clamped := 0
  bitRate := 125
  bidWindow := 0
  acceptTimeout := 0
  arrivalTimeout := 0
  reofferInterval := 0
  attemptLimit := 0
  releaseWindow := 0
  rollcallWindow := 0
  rejoinInterval := 0
  remoteTimeout := 0
  filters := List.replicate 4 ⟨0, 0, false⟩
  sitesFitted := 0
  minSites := 0
  bands := []
  slotCount := 0
  busyActiveHigh := false
  transition := []
  recipes := []
  steps := []

/-! ## Sizes and times the manual fixes -/

namespace Config

/-- Places of the lot table (R1). -/
def lotCapacity : Nat := 16
/-- Commitments a station may hold (R6). -/
def commitmentLimit : Nat := 8
/-- Bid records a station may hold (R56). -/
def bidCapacity : Nat := 4
/-- Transmit slots (R24). -/
def transmitSlots : Nat := 6
/-- Entries of the family hold list (R156). -/
def familyCapacity : Nat := 16
/-- Keys of the clear-due list (R159). -/
def clearDueCapacity : Nat := 16
/-- Entries of the objection list (R175). -/
def objectionCapacity : Nat := 16
/-- Entries of the released ring (R178). -/
def ringCapacity : Nat := 8
/-- Samples of the touchdown timer ring (R128). -/
def timerCapacity : Nat := 16
/-- Notices that may wait (R187). -/
def noticeCapacity : Nat := 16
/-- Where a saturating sum of seconds stops (3.3). -/
def costLimit : Nat := 65535
/-- Steps a walk may visit (R53, R97). -/
def walkLimit : Nat := 16
/-- Life of a bid record in ms (R59). -/
def bidLifeMs : Nat := 15000
/-- Selection deadline of the chain end in ms (R103). -/
def selectionMs : Nat := 30000
/-- Operator command timeout in ms (R108). -/
def operatorCommandMs : Nat := 900000
/-- Debounce of the kit lines in ms (R93). -/
def kitDebounceMs : Nat := 50
/-- Characters a line may hold before its carriage return (R183). -/
def lineCapacity : Nat := 80
/-- Delay before a refused or displaced class 3 frame is placed again, in ms (R165, R173, R178). -/
def retryMs : Nat := 1000
/-- The floor clock counts from 0 to one less than this (R2). -/
def clockEnd : Nat := 281474976710656

/-! ## Free values -/

/-- FREE VALUE: what the floor clock reads after a count that would pass 2^48 - 1 (R2 gives its range and
nothing beyond). -/
opaque clockPastEnd : Nat → BitVec 48

/-- FREE VALUE: the recipe the rules read for a lot whose product has no local recipe (a record built from a
dossier is not checked against the recipe table, R15). -/
opaque absentRecipe : Nat → Recipe

/-- FREE VALUE: the insertion of a recipe the rules read where the local recipe's route is shorter than the
lot's own, by product and insertion number. -/
opaque absentInsertion : Nat → Nat → RecipeInsertion

/-- FREE VALUE: the step record the rules read for a step number the table does not hold. -/
opaque absentStep : Nat → StepRecord

/-- FREE VALUE: for how many of the `ms` milliseconds that follow a clock reading the floor link stands idle while a
WITHDRAWN station watches it (R38; log 3): the floor decides it, and no command of the table tells it. -/
opaque lineIdleMs : Nat → Nat → Nat

/-- FREE VALUE: how long after a clock reading the floor link is busy in all before it has been idle for `left` more
milliseconds (R38; log 3). -/
opaque lineBusyMs : Nat → Nat → Nat

/-- FREE VALUE: how many characters of the line being sent have gone out when a warm reset at a clock reading ends it
(R183, R187; log 60). -/
opaque sentBeforeCut : Nat → Nat

/-- FREE VALUE: whether a frame in which an error is found at a clock reading, after so many signals driven before it, has been
acknowledged before the error (R22, R23; log 63): that hangs on whether the error lies after the frame's acknowledgement slot,
and no command of the table tells it. -/
opaque ackedBeforeError : Nat → Nat → Bool

/-- FREE VALUE: the byte the loader reads at an offset past the bytes the memory was given with. -/
opaque unreadByte : Nat → Byte

end Config

end Sys2Proof
end

