-- ==== Sys2Proof/Machine/State.lean ====
section
/-! DEFINITION. The state of the part, as plain data: every record, collection, timer, mark and pin the manual
gives it, block by block (00, Block overview), and the queue of commands that wait. -/

namespace Sys2Proof.Machine

/-! ## Reasons a step can stop -/

/-- The faults of the part. There is none: every command of the table leaves a state the manual gives. -/
inductive Fault where
  deriving DecidableEq, Repr

/-- The refusals. Raised by `exec` alone, and by no arm once every command has its meaning. -/
inductive Refusal where
  /-- raised by an arm of `exec` whose command has no meaning yet; safe: nothing is claimed of it -/
  | notModelled (mnemonic : String)
  deriving DecidableEq, Repr

/-! ## Lot records (chapter 1) -/

/-- The twelve lot states (R3). -/
inductive LotState where
  | awaiting | offered | awarded | outbound | inboundPending | inbound | queued | setup | inTest | closing | finished
  | releasing
  deriving DecidableEq, Repr, Inhabited

/-- The kinds of timeout a lot record's deadline may be (R4). -/
inductive DeadlineKind where
  | reoffer | bidWindow | acceptTimeout | arrivalTimeout | releaseWindow
  deriving DecidableEq, Repr, Inhabited

/-- A deadline: a floor-clock time and the kind of its timeout (R2, R4). -/
structure Deadline where
  kind : DeadlineKind
  time : Nat
  deriving DecidableEq, Repr, Inhabited

/-- One insertion of a lot's route (R2). -/
structure RouteStep where
  band : Band
  program : Nat
  deriving DecidableEq, Repr, Inhabited

/-- The phase of an insertion account (R9). -/
inductive Phase where
  | main | voidPass
  deriving DecidableEq, Repr, Inhabited

/-- Whether the void pass of a lot in CLOSING runs (R130). -/
inductive VoidPass where
  | notRun | running | ended
  deriving DecidableEq, Repr, Inhabited

/-- The current insertion account (R9). `bins` holds bin_count of bins 1 to 15; the three per-site lists hold
sites 1 to 8. -/
structure Account where
  declared : Nat
  adj : Int
  placedMain : Nat
  inSockets : Nat
  bins : List Nat
  voidOpen : Nat
  voidFinal : Nat
  scrapped : Nat
  siteTested : List Nat
  siteGood : List Nat
  failRun : List Nat
  phase : Phase
  excess : Bool
  voidPass : VoidPass
  deriving DecidableEq, Repr, Inhabited

/-- A closed insertion summary (R11). -/
structure Summary where
  insertionNo : Nat
  station : Nat
  declared : Nat
  adj : Int
  good : Nat
  rejects : Nat
  voidFinal : Nat
  scrapped : Nat
  deriving DecidableEq, Repr, Inhabited

/-- The scope of a hold (R13). -/
inductive Scope where
  | lot | family
  deriving DecidableEq, Repr, Inhabited

/-- A hold record (R13). -/
structure Hold where
  kind : HoldKind
  insertionNo : Nat
  raised : Nat
  scope : Scope
  trigger : Option (Int × Int)
  bins : List Nat
  deriving DecidableEq, Repr, Inhabited

/-- Whether a frame an owner tracks is still in a slot or has been sent (R42, R173). -/
inductive SendState where
  | pending | sent
  deriving DecidableEq, Repr, Inhabited

/-- The offer state of a lot in OFFERED (R42): `own` carries the own cost, `best` is cost and station. -/
structure OfferState where
  frame : SendState
  own : Option (SendState × Nat)
  best : Option (Nat × Nat)
  deriving DecidableEq, Repr, Inhabited

/-- The dossier send of a lot in AWARDED (R68). -/
inductive DossierSend where
  | waiting
  | sending (segment : Nat)
  | stopped
  | done
  deriving DecidableEq, Repr, Inhabited

/-- A lot record (R2), with the fields the dispatch unit (R42), the custody unit (R68), the hold evaluator
(R151) and the release unit (R172, R173) keep for it. `nextInsertion` is none for DONE. -/
structure LotRecord where
  lot : Nat
  product : Nat
  family : Nat
  priority : Nat
  entryQty : Nat
  route : List RouteStep
  nextInsertion : Option Nat
  state : LotState
  peer : Option Nat
  attempts : Nat
  stranded : Bool
  deadline : Option Deadline
  account : Option Account
  summaries : List Summary
  holds : List Hold
  disposedHolds : Nat
  suppressYield : Bool
  suppressBins : List Nat
  arrival : Option Nat
  /-- offer state (R42) -/
  offer : Option OfferState
  /-- award mark DUE (R42) -/
  awardDue : Bool
  /-- dossier send (R68) -/
  dossierSend : Option DossierSend
  /-- segments collected (R68) -/
  collected : Nat
  /-- segment count announced by segment 1 (R68) -/
  segmentCount : Option Nat
  /-- taken from (R68) -/
  takenFrom : Option Nat
  /-- recall mark (R68) -/
  recallMark : Option Nat
  /-- the release state's intent frame, while RELEASING (R173) -/
  intent : Option SendState
  /-- release retry time (R172) -/
  releaseRetry : Option Nat
  /-- marked ending by a SCRAP in test (R151) -/
  ending : Bool
  deriving DecidableEq, Repr, Inhabited

/-! ## The link controller (chapter 2) -/

/-- The blocks that place frames (R24, R31). -/
inductive Block where
  | dispatch | custody | family | release | evaluator
  deriving DecidableEq, Repr, Inhabited

/-- The data of a frame this part sends (R20, 11.1). The OFFER's band is carried as its code. -/
inductive FrameData where
  | hold (family lot raiser : Nat)
  | clear (family lot raiser : Nat)
  | object (lot reason objected : Nat)
  | award (lot winner : Nat)
  | dossier (segment : DossierSegment)
  | accept (lot offerer : Nat)
  | take (lot offerer : Nat)
  | decline (lot offerer : Nat)
  | recall (lot winner : Nat)
  | offer (fields : OfferFields)
  | bid (lot offerer cost : Nat)
  | rollcall
  | intent (lot family : Nat)
  | shipped (lot family good : Nat)
  | dispose (lot kind disposition requester : Nat)
  | disposed (lot kind result requester : Nat)
  deriving DecidableEq, Repr, Inhabited

/-- A frame as its owner gives it to the link controller: owner, the lot it concerns (0 for ROLLCALL), data. -/
structure Frame where
  owner : Block
  lot : Nat
  data : FrameData
  deriving DecidableEq, Repr, Inhabited

/-- What a slot that is not EMPTY holds (R24). -/
structure SlotEntry where
  frame : Frame
  identifier : Nat
  placement : Nat
  /-- ON_WIRE; PENDING otherwise -/
  onWire : Bool
  cancelMark : Bool
  deriving DecidableEq, Repr, Inhabited

/-- The link states (R35). -/
inductive LinkState where
  | normal | warned | quiet | withdrawn
  deriving DecidableEq, Repr, Inhabited

/-- What the part drives on the floor link beside its own frames: the acknowledgement slot of a frame it receives (R22),
and the signal of an error it finds, active or passive (R23). -/
inductive LineSignal where
  | acknowledge | errorActive | errorPassive
  deriving DecidableEq, Repr, Inhabited

/-- The link controller (R24, R29, R32, R34, R38). A slot is none when EMPTY. -/
structure LinkCtl where
  slots : List (Option SlotEntry)
  requests : List (Block × Nat)
  placements : Nat
  txErr : Nat
  rxErr : Nat
  state : LinkState
  /-- the line has been observed idle since the last start or rejoin, and the part takes part in it (R19) -/
  joined : Bool
  /-- rejoin accumulator in ms (R38) -/
  rejoinAcc : Nat
  /-- station clash mark (R32) -/
  clash : Bool
  /-- the acknowledgements and error signals driven since the link controller started, in order (R22, R23; log 11) -/
  signals : List LineSignal
  deriving DecidableEq, Repr, Inhabited

/-! ## The dispatch unit's bid records (R56) and the custody unit (R68, R70) -/

/-- A bid record (R56). Its status is SENT when `sentAt` is present, else PENDING. -/
structure BidRecord where
  lot : Nat
  offerer : Nat
  family : Nat
  cost : Nat
  created : Nat
  sentAt : Option Nat
  deriving DecidableEq, Repr, Inhabited

/-- The answers the custody unit may owe (R68). -/
inductive AnswerKind where
  | accept | take | decline | recall | object
  deriving DecidableEq, Repr, Inhabited

/-- A due answer: the lot, the kind and the station it names (R68). -/
structure Answer where
  lot : Nat
  kind : AnswerKind
  station : Nat
  deriving DecidableEq, Repr, Inhabited

/-- The custody unit's own collections: due answers in the order they became due, and the send list (R68, R70). -/
structure CustodyUnit where
  answers : List Answer
  sendList : List Nat
  deriving DecidableEq, Repr, Inhabited

/-! ## The changeover engine (chapter 5) -/

/-- The states of a program slot (R87). -/
inductive ProgState where
  | empty | loading | resident | invalid
  deriving DecidableEq, Repr, Inhabited

/-- An entry of the program slot table (R87). -/
structure ProgSlot where
  state : ProgState
  program : Option Nat
  correlated : Option Nat
  deriving DecidableEq, Repr, Inhabited

/-- The tester commands that can be in flight (R89). -/
inductive TesterCmd where
  | load (slot program : Nat)
  | evict (slot : Nat)
  | select (slot : Nat)
  | check
  deriving DecidableEq, Repr, Inhabited

/-- Where a tester command in flight came from (R89). -/
inductive Origin where
  | step | chainEnd | operator
  deriving DecidableEq, Repr, Inhabited

/-- The phases of the thermal state (R91). -/
inductive ThermalPhase where
  | unknown | ramping | atSetpoint | soaking | ready
  deriving DecidableEq, Repr, Inhabited

/-- The thermal state (R91), soak remaining in ms. -/
structure Thermal where
  band : Option Band
  phase : ThermalPhase
  soak : Nat
  deriving DecidableEq, Repr, Inhabited

/-- The states of the engine (R95). -/
inductive EngineState where
  | idle | running | pausing | paused | faulted
  deriving DecidableEq, Repr, Inhabited

/-- The fault causes of the engine (R106). -/
inductive FaultCause where
  | loop | programMissing | testerFault | handlerFault | timeout | loadFailed | checkFail | kitChanged | tempLost
  deriving DecidableEq, Repr, Inhabited

/-- The walk record (R95). `current` is none at END. `begun` is clear while the head waits to be visited
(R96), `inStep` is set while a step is in flight, and `endAgain` is set when the active slot has changed, or the
program's slot has left RESIDENT, while the engine waits at END for the lot to become unheld (R103). -/
structure Walk where
  lot : Nat
  current : Option Nat
  begun : Bool
  count : Nat
  inStep : Bool
  deadline : Option Nat
  bandMark : Bool
  kitMark : Bool
  deferred : Option FaultCause
  fault : Option (FaultCause × Option Nat)
  endAgain : Bool
  deriving DecidableEq, Repr, Inhabited

/-- The changeover engine: slot table, LRU order (oldest first), active slot, command in flight with its
origin, operator command deadline, thermal state, kit taken and the time the kit lines last changed, engine
state and walk record (R87 to R96). -/
structure SetupUnit where
  slots : List ProgSlot
  lru : List Nat
  active : Option Nat
  inFlight : Option (TesterCmd × Origin)
  operatorDeadline : Option Nat
  thermal : Thermal
  kitTaken : Nat
  kitSince : Option Nat
  engine : EngineState
  walk : Option Walk
  deriving DecidableEq, Repr, Inhabited

/-! ## The touchdown controller (chapter 6) -/

/-- Why a site is HELD (R114). -/
inductive SiteReason where
  | spread | run | operator
  deriving DecidableEq, Repr, Inhabited

/-- The states of a site of the site map (R114). -/
inductive SiteState where
  | fittedOff | enabled
  | held (reason : SiteReason)
  deriving DecidableEq, Repr, Inhabited

/-- The stages of a touchdown (R120). -/
inductive TdStage where
  | parked | testing | sorting
  deriving DecidableEq, Repr, Inhabited

/-- The kinds of touchdown (R120). -/
inductive TdKind where
  | counted | orphan
  deriving DecidableEq, Repr, Inhabited

/-- The count a void site's unit went to (R120); `uncounted` for the units of R121 and R122 that no count takes. -/
inductive VoidCount where
  | voidOpen | voidFinal | uncounted
  deriving DecidableEq, Repr, Inhabited

/-- The touchdown record (R120), busy time in ms. -/
structure Touchdown where
  stage : TdStage
  kind : TdKind
  active : List Nat
  voidSites : List (Nat × VoidCount)
  sequence : Option Nat
  deadline : Option Nat
  busy : Nat
  lotEmptyMark : Bool
  deriving DecidableEq, Repr, Inhabited

/-- The touchdown controller (R113 to R128). `sites` holds sites 1 to 8; `timerRing` is oldest first. -/
structure TdUnit where
  sites : List SiteState
  latch : Bool
  stopMark : Bool
  touchdown : Option Touchdown
  sequence : Nat
  timerRing : List Nat
  deriving DecidableEq, Repr, Inhabited

/-! ## Remote disposition, family hold list, release unit (chapters 7 to 9) -/

/-- The pending remote disposition (R152). `placement` is the placement number its DISPOSE was given (R24), which tells that
frame from the DISPOSE of an earlier request still in a slot (R154). -/
structure RemoteDisposition where
  lot : Nat
  kind : HoldKind
  disposition : Disposition
  deadline : Nat
  placement : Nat
  deriving DecidableEq, Repr, Inhabited

/-- The states of a family hold list entry (R156). -/
inductive EntryState where
  | confirmed | unconfirmed | stale
  deriving DecidableEq, Repr, Inhabited

/-- A family hold list entry (R156). -/
structure FamilyEntry where
  family : Nat
  lot : Nat
  raiser : Nat
  isLocal : Bool
  state : EntryState
  time : Nat
  holdDue : Bool
  deriving DecidableEq, Repr, Inhabited

/-- The roll-call answer cursor while it walks (R166): the key it stands at, whether the answer of this walk for
it has been placed, and the key of an answer placed before a restart whose attempt on the line the cursor waits for. `gone`
is there once the entry it stands at has been removed with its answer on the line: how many of the list's entries stand
before the place the entry had. -/
structure Cursor where
  family : Nat
  lot : Nat
  placed : Bool
  waitsFor : Option (Nat × Nat)
  gone : Option Nat
  deriving DecidableEq, Repr, Inhabited

/-- The family hold list (R156 to R166), entries oldest first. -/
structure FamilyUnit where
  entries : List FamilyEntry
  saturated : Bool
  unsettled : Bool
  refusalMark : Bool
  clearDue : List (Nat × Nat)
  rollcallDue : Bool
  /-- when a refused or displaced ROLLCALL is placed again (R165) -/
  rollcallRetry : Option Nat
  /-- deadline of the running roll-call window (R165) -/
  window : Option Nat
  cursor : Option Cursor
  deriving DecidableEq, Repr, Inhabited

/-- An entry of the released ring (R178). `retry` is when a refused or displaced SHIPPED is placed again; `placement` is
the placement number of its SHIPPED while that stands in a slot (R24), which tells two entries of one lot apart. -/
structure RingEntry where
  lot : Nat
  family : Nat
  good : Nat
  time : Nat
  due : Bool
  retry : Option Nat
  placement : Option Nat
  deriving DecidableEq, Repr, Inhabited

/-- The reasons of an OBJECT (11.1). -/
inductive ObjectReason where
  | duplicate | family
  deriving DecidableEq, Repr, Inhabited

/-- A due objection (R175). -/
structure Objection where
  lot : Nat
  reason : ObjectReason
  station : Nat
  deriving DecidableEq, Repr, Inhabited

/-- The release unit's own collections (R175, R178). -/
structure ReleaseUnit where
  ring : List RingEntry
  objections : List Objection
  deriving DecidableEq, Repr, Inhabited

/-! ## The operator line (chapter 10) -/

/-- Reply codes (R185), which are also the result codes of DISPOSED (11.1). -/
inductive ReplyCode where
  | ok | busy | full | duplicate | unknownLot | unknownProduct | badValue | wrongState | moving | notOpen
  | notDisposable | stillShort | notActive | notStale | slotNotEmpty | linkDown | configFault
  deriving DecidableEq, Repr, Inhabited

/-- The causes of CONFIG_FAULT (R190). -/
inductive ConfigCause where
  | noImage | header | sum | goodBins | stepLink | straps
  deriving DecidableEq, Repr, Inhabited

/-- The value of one field of a reply or notice line (R186). -/
inductive FieldValue where
  | num (n : Nat)
  | int (n : Int)
  | word (w : String)
  | nums (l : List Nat)
  | ints (l : List Int)
  deriving DecidableEq, Repr, Inhabited

/-- One field, written name=value (R186). -/
structure Field where
  name : String
  value : FieldValue
  deriving DecidableEq, Repr, Inhabited

/-- A reply (R185, R186). The items of a STATUS reply are its "=" lines. -/
inductive Reply where
  | ok
  | okLot (lot : Nat)
  | no (code : ReplyCode)
  | status (subject : StatusSubject) (items : List (List Field))
  deriving DecidableEq, Repr, Inhabited

/-- Reasons of ARRIVAL_CANCELLED (R78, R81, R82). -/
inductive CancelReason where
  | timeout | recalled | reoffered
  deriving DecidableEq, Repr, Inhabited

/-- Causes of RELEASE_ABANDONED (R174). -/
inductive AbandonCause where
  | objection (station : Nat) (reason : ObjectReason)
  | hold (kind : HoldKind)
  | notSent
  | withdrawn
  deriving DecidableEq, Repr, Inhabited

/-- Who asked for a disposition (R145, R164). -/
inductive Requester where
  | terminal | station (n : Nat) | auto
  deriving DecidableEq, Repr, Inhabited

/-- Results of a remote disposition (R154). -/
inductive RemoteResult where
  | code (c : ReplyCode) | noAnswer | notSent
  deriving DecidableEq, Repr, Inhabited

/-- What a PORT_ERROR notice names beside the port (R113, R194). -/
inductive PortErrorKind where
  | tdReady | format
  deriving DecidableEq, Repr, Inhabited

/-- The notices (R187). -/
inductive Notice where
  | started (station imageLength recipes clamped : Nat)
  | restarted (byPin : Bool) (station : Nat)
  | configFault (cause : ConfigCause)
  | stationClash (cls kind : Nat)
  | linkState (state : LinkState) (txErr rxErr : Nat)
  | stranded (lot attempts : Nat)
  | arrivalExpected (lot offerer product insertion qty : Nat)
  | lotOut (lot station : Nat)
  | lotTaken (lot station : Nat)
  | lotDeclined (lot station : Nat)
  | arrivalCancelled (lot : Nat) (reason : CancelReason)
  | kitChange (lot target taken : Nat)
  | operatorWait (lot step : Nat)
  | setupFault (lot : Nat) (cause : FaultCause) (step : Option Nat)
  | slot (slot : Nat) (state : ProgState) (program : Option Nat)
  | portError (port : Port) (what : PortErrorKind)
  | orphanUnits (sites : List Nat)
  | tdTimeout
  | kitChanged (old new : Nat)
  | siteEnabled (site : Nat)
  | siteHeld (lot : Option Nat) (site : Nat) (reason : SiteReason) (values : List Nat)
  | stopped
  | voidReload (lot voidOpen : Nat)
  | insertionClosed (lot insertion : Nat) (summary : Summary)
  | emptyLot (lot : Nat)
  | holdRaised (lot : Nat) (kind : HoldKind) (scope : Scope) (insertion : Nat) (trigger : Option (Int × Int))
  | holdBinAdded (lot bin count : Nat)
  | holdDisposed (lot : Nat) (kind : HoldKind) (decision : Option Disposition) (by_ : Requester)
  | scrapped (lot : Nat) (kind : HoldKind) (nextInsertion : Option Nat)
  | disposeResult (lot : Nat) (kind : HoldKind) (disposition : Disposition) (result : RemoteResult)
  | clearLost (family lot : Nat)
  | escape (lot family good time entryLot raiser : Nat)
  | staleFamily (family lot raiser : Nat)
  | releaseAbandoned (lot : Nat) (cause : AbandonCause)
  | objectionLost (lot : Nat) (reason : ObjectReason) (station : Nat)
  | lateObjection (lot station : Nat) (reason : ObjectReason)
  | shipped (lot family good entryQty routeLength : Nat)
  | shippedElsewhere (lot station : Nat)
  deriving DecidableEq, Repr, Inhabited

/-- A line going out on the operator line (R183): a reply, or a notice with the overflow count its "!+" names
when the overflow mark was set (R187). -/
inductive OutLine where
  | reply (r : Reply)
  | notice (n : Notice) (overflow : Option Nat)
  deriving DecidableEq, Repr, Inhabited

/-- A line that has gone out on the operator line: whole, or ended by a warm reset after so many of its characters
(R183, R187). -/
inductive SentLine where
  | whole (l : OutLine)
  | cut (l : OutLine) (characters : Nat)
  deriving DecidableEq, Repr, Inhabited

/-- The operator line (R183, R187, R192): the line being sent, the replies not yet begun, the one line waiting
to be parsed, how many NO BUSY replies stand behind its reply, the notice queue, the overflow mark and count,
whether a RESTART has been taken and how many replies go out before its warm reset; the characters of the line being
gathered, its too-long mark, and whether the receiver discards up to the next carriage return; and the lines that have
gone out, in order (log 11). -/
structure OperatorLine where
  sending : Option OutLine
  replies : List Reply
  waiting : Option Instr
  busyBehind : Nat
  notices : List Notice
  overflowMark : Bool
  overflowCount : Nat
  restarting : Bool
  beforeReset : Nat
  gathered : List Char
  tooLong : Bool
  discarding : Bool
  sent : List SentLine
  deriving DecidableEq, Repr, Inhabited

/-! ## The cell ports (11.2) -/

/-- A cup of a SORT (R113); `none` for a site with no unit in the touchdown (11.2). -/
inductive Cup where
  | none
  | bin (n : Nat)
  | void
  | scrap
  deriving DecidableEq, Repr, Inhabited

/-- Messages to the handler (11.2); SORT names the cups of sites 1 to 8. -/
inductive HandlerMsg where
  | sort (cups : List Cup)
  | setpoint (band : Band)
  | lotEnd
  deriving DecidableEq, Repr, Inhabited

/-- Messages to the tester (11.2). -/
inductive TesterMsg where
  | load (slot program : Nat)
  | cancel (slot : Nat)
  | evict (slot : Nat)
  | select (slot : Nat)
  | check
  | tdStart (sequence : Nat) (active : List Nat)
  deriving DecidableEq, Repr, Inhabited

/-- The cell ports: the messages given to each port, in order, and whether each receiver ignores bytes until
its line has been idle (R194). -/
structure CellPorts where
  toHandler : List HandlerMsg
  toTester : List TesterMsg
  handlerIgnoring : Bool
  testerIgnoring : Bool
  deriving DecidableEq, Repr, Inhabited

/-! ## The part and the machine -/

/-- The blocks of the part (00, Block overview). -/
structure Blocks where
  link : LinkCtl
  /-- the lot table, in ascending lot id -/
  lots : List LotRecord
  bids : List BidRecord
  custody : CustodyUnit
  setup : SetupUnit
  td : TdUnit
  remote : Option RemoteDisposition
  family : FamilyUnit
  release : ReleaseUnit
  op : OperatorLine
  ports : CellPorts
  deriving DecidableEq, Repr, Inhabited

/-- How far the part has started (R190, R191). -/
inductive RunState where
  /-- no power -/
  | off
  /-- power applied, the start-up loader reading the image -/
  | loading
  | running
  | configFault (cause : ConfigCause)
  deriving DecidableEq, Repr, Inhabited

/-- The levels of the input lines (11.4); the straps are read where a command gives them. -/
structure Pins where
  testerFault : Bool
  handlerFault : Bool
  testBusy : Bool
  kitLines : BitVec 6
  /-- RESET_N is held low -/
  resetHeld : Bool
  deriving DecidableEq, Repr, Inhabited

end Sys2Proof.Machine

namespace Sys2Proof.Machine

/-- The state of the machine: floor clock (R2), start state (R191), the straps as last sampled (R40), the
working copy of the image and whether one has been kept (R188, R191), the input lines, the blocks, and the
commands that wait, first in first out. -/
structure State where
  clock : Nat
  run : RunState
  straps : BitVec 6
  image : WorkingCopy
  imageKept : Bool
  pins : Pins
  blocks : Blocks
  pending : List Instr
  deriving DecidableEq, Repr

/-- What a block's rule reads and does not change: the present floor-clock time, the working copy, the station
number, the input lines and the start state. -/
structure Ctx where
  now : Nat
  cfg : WorkingCopy
  own : Nat
  pins : Pins
  run : RunState
  deriving DecidableEq, Repr, Inhabited

/-- The link controller after power-on (R40). -/
def LinkCtl.powerOn : LinkCtl where
  slots := [none, none, none, none, none, none]
  requests := []
  placements := 0
  txErr := 0
  rxErr := 0
  state := .normal
  joined := false
  rejoinAcc := 0
  clash := false
  signals := []

/-- The setup state of a cell with `n` program slots after power-on (R111): every slot INVALID with no program,
slot 1 oldest, the thermal state unknown, the engine IDLE. -/
def SetupUnit.powerOn (n : Nat) (kitSince : Option Nat) : SetupUnit where
  slots := List.replicate n ⟨.invalid, none, none⟩
  lru := (List.range n).map (· + 1)
  active := none
  inFlight := none
  operatorDeadline := none
  thermal := ⟨none, .unknown, 0⟩
  kitTaken := 0
  kitSince := kitSince
  engine := .idle
  walk := none

/-- The touchdown controller of a handler with `n` fitted sites after power-on (R134). -/
def TdUnit.powerOn (n : Nat) : TdUnit where
  sites := (List.range 8).map (fun i => if i < n then .enabled else .fittedOff)
  latch := true
  stopMark := false
  touchdown := none
  sequence := 0
  timerRing := []

/-- The family hold list after power-on, before its roll call is started (R170). -/
def FamilyUnit.powerOn : FamilyUnit where
  entries := []
  saturated := false
  unsettled := true
  refusalMark := false
  clearDue := []
  rollcallDue := false
  rollcallRetry := none
  window := none
  cursor := none

/-- The operator line after power-on (R187). -/
def OperatorLine.powerOn : OperatorLine where
  sending := none
  replies := []
  waiting := none
  busyBehind := 0
  notices := []
  overflowMark := false
  overflowCount := 0
  restarting := false
  beforeReset := 0
  gathered := []
  tooLong := false
  discarding := false
  sent := []

/-- The blocks after power-on, of a cell with so many program slots and fitted sites (R17, R40, R67, R86, R111,
R134, R155, R170, R181, R187). The receivers of the ports take the first byte as the start of a message (DESIGN CHOICE, log 80: R194
gives no value at power-on). -/
def Blocks.powerOn (slotCount sitesFitted : Nat) (kitSince : Option Nat) : Blocks where
  link := LinkCtl.powerOn
  lots := []
  bids := []
  custody := ⟨[], []⟩
  setup := SetupUnit.powerOn slotCount kitSince
  td := TdUnit.powerOn sitesFitted
  remote := none
  family := FamilyUnit.powerOn
  release := ⟨[], []⟩
  op := OperatorLine.powerOn
  ports := ⟨[], [], false, false⟩

/-- The blocks before any image is known, and in CONFIG_FAULT, where no block holds any record (R190). The ROLLCALL due mark, which
STATUS FAMILY shows, is clear: in CONFIG_FAULT no roll call is started (DESIGN CHOICE, log 94: R191 has it due after power-on, R170
has nothing placed in CONFIG_FAULT). -/
def Blocks.blank : Blocks := Blocks.powerOn 0 0 none

/-- The machine before its first POWER_ON: no power, floor clock 0, every block at its power-on values, no
image read. The input lines read deasserted (DESIGN CHOICE, log 5); the station straps read 0 until POWER_ON
samples them. -/
def State.reset : State where
  clock := 0
  run := .off
  straps := 0
  image := WorkingCopy.blank
  imageKept := false
  pins := ⟨false, false, false, 0, false⟩
  blocks := Blocks.blank
  pending := []

end Sys2Proof.Machine
end

