-- ==== Sys2Proof/Machine/Ops.lean ====
section
/-! DEFINITION. The named operations every block's rules use: reading and writing the lot table, queueing
notices, replies and port messages, and letting time pass. -/

namespace Sys2Proof.Machine

/-! ## Lists -/

/-- Insertion into a list ordered by `le`, before the elements it is not after. -/
def insertBy {α : Type} (le : α → α → Bool) (x : α) : List α → List α
  | [] => [x]
  | y :: ys => if le x y then x :: y :: ys else y :: insertBy le x ys

/-- A list in the order `le`; elements `le` does not tell apart keep their order. -/
def sortBy {α : Type} (le : α → α → Bool) : List α → List α
  | [] => []
  | x :: xs => insertBy le x (sortBy le xs)

/-- Sites 1 to 8. -/
def allSites : List Nat := [1, 2, 3, 4, 5, 6, 7, 8]

/-- ceil(x / y) (00, Arithmetic). -/
def ceilDiv (x y : Nat) : Nat := (x + y - 1) / y

/-- A sum that saturates at 65,535 (3.3). -/
def satAdd (x y : Nat) : Nat := min Config.costLimit (x + y)

/-- The band a code stands for (chapter 11). -/
def bandOfCode : Nat → Option Band
  | 1 => some .cold
  | 2 => some .room
  | 3 => some .hot
  | _ => none

/-- The code of a band (chapter 11). -/
def bandCode : Band → Nat
  | .cold => 1
  | .room => 2
  | .hot => 3

/-! ## What a rule reads -/

/-- The context a block's rule is given. -/
def State.ctx (s : State) : Ctx := ⟨s.clock, s.image, s.straps.toNat, s.pins, s.run⟩

/-- The local recipe of a product, when the recipe table has one (R188). -/
def Ctx.recipe? (c : Ctx) (product : Nat) : Option Recipe := c.cfg.recipes.find? (fun r => r.product == product)

/-- The recipe the rules of a lot read: the local recipe of its product, a free value when there is none. -/
def Ctx.recipe (c : Ctx) (product : Nat) : Recipe := (c.recipe? product).getD (Config.absentRecipe product)

/-- Insertion `n`, counted from 1, of the local recipe's route for a product. -/
def Ctx.insertion (c : Ctx) (product n : Nat) : RecipeInsertion :=
  ((c.recipe product).route[n - 1]?).getD (Config.absentInsertion product n)

/-- The step record of a step number (R94). -/
def Ctx.stepRecord (c : Ctx) (n : Nat) : StepRecord := (c.cfg.steps[n]?).getD (Config.absentStep n)

/-! ## The lot table (R1, R5) -/

/-- The record of a lot id, if the table holds one. -/
def Blocks.lot? (b : Blocks) (id : Nat) : Option LotRecord := b.lots.find? (fun r => r.lot == id)

/-- Change the record of a lot id, if the table holds one. -/
def Blocks.modLot (b : Blocks) (id : Nat) (f : LotRecord → LotRecord) : Blocks :=
  { b with lots := b.lots.map (fun r => if r.lot == id then f r else r) }

/-- Store a new record in its place by lot id. -/
def Blocks.addLot (b : Blocks) (r : LotRecord) : Blocks :=
  { b with lots := insertBy (fun x y => decide (x.lot ≤ y.lot)) r b.lots }

/-- Take a record off the table, with nothing else (R5). -/
def Blocks.dropLot (b : Blocks) (id : Nat) : Blocks := { b with lots := b.lots.filter (fun r => r.lot != id) }

/-- The lot in SETUP, IN_TEST or CLOSING, if there is one (R8). -/
def Blocks.cellLot? (b : Blocks) : Option LotRecord :=
  b.lots.find? (fun r => r.state == .setup || r.state == .inTest || r.state == .closing)

/-- The lot in IN_TEST or CLOSING, if there is one. -/
def Blocks.testLot? (b : Blocks) : Option LotRecord := b.lots.find? (fun r => r.state == .inTest || r.state == .closing)

/-- Change the insertion account of a record, when it is present. -/
def LotRecord.modAccount (r : LotRecord) (f : Account → Account) : LotRecord := { r with account := r.account.map f }

/-- The insertion number a hold or a link frame names: next insertion, or the route length when DONE (R13). -/
def LotRecord.insertionNo (r : LotRecord) : Nat := r.nextInsertion.getD r.route.length

/-- The insertion of the route that is next, while there is one. -/
def LotRecord.nextStep? (r : LotRecord) : Option RouteStep := r.nextInsertion.bind (fun n => r.route[n - 1]?)

/-- The good of the last closed insertion summary (R44, R177). -/
def LotRecord.lastGood (r : LotRecord) : Nat := (r.summaries.getLast?.map (·.good)).getD 0

/-- The in qty of the next insertion: entry qty for insertion 1, else the good of the last summary (R9, R44). -/
def LotRecord.inQty (r : LotRecord) : Nat := if r.nextInsertion == some 1 then r.entryQty else r.lastGood

/-- The count declared in qty plus adj of an account (R121). -/
def Account.expected (a : Account) : Int := (a.declared : Int) + a.adj

/-- tested: the sum of bin_count[1..15] (R9). -/
def Account.tested (a : Account) : Nat := a.bins.sum

/-- bin_count[b] for a bin 1..15 (R9). -/
def Account.bin (a : Account) (b : Nat) : Nat := if b == 0 then 0 else a.bins.getD (b - 1) 0

/-- good: the sum of bin_count over a good-bin set (R9). -/
def Account.good (a : Account) (goodBins : List Nat) : Nat := (goodBins.map a.bin).sum

/-- A fresh insertion account (R9). -/
def Account.fresh (declared : Nat) : Account where
  declared := declared
  adj := 0
  placedMain := 0
  inSockets := 0
  bins := List.replicate 15 0
  voidOpen := 0
  voidFinal := 0
  scrapped := 0
  siteTested := List.replicate 8 0
  siteGood := List.replicate 8 0
  failRun := List.replicate 8 0
  phase := .main
  excess := false
  voidPass := .notRun

/-- A record as it first stands: the identity fields given, everything else as R14 and R15 start it. What a dossier
carries stands at 0, an empty route and insertion 1 until its segments are collected (DESIGN CHOICE, log 37: R15 and R71
give these fields no value before segment 1, and STATUS LOT shows them). -/
def LotRecord.fresh (lot : Nat) (state : LotState) : LotRecord where
  lot := lot
  product := 0
  family := 0
  priority := 0
  entryQty := 0
  route := []
  nextInsertion := some 1
  state := state
  peer := none
  attempts := 0
  stranded := false
  deadline := none
  account := none
  summaries := []
  holds := []
  disposedHolds := 0
  suppressYield := false
  suppressBins := []
  arrival := none
  offer := none
  awardDue := false
  dossierSend := none
  collected := 0
  segmentCount := none
  takenFrom := none
  recallMark := none
  intent := none
  releaseRetry := none
  ending := false

/-! ## Sites (R114) -/

/-- The state of a site of the site map. -/
def TdUnit.site (t : TdUnit) (s : Nat) : SiteState := if s == 0 then .fittedOff else t.sites.getD (s - 1) .fittedOff

/-- Change one entry of the site map. -/
def TdUnit.setSite (t : TdUnit) (s : Nat) (v : SiteState) : TdUnit := { t with sites := t.sites.set (s - 1) v }

/-- The enabled set, ascending. -/
def TdUnit.enabledSites (t : TdUnit) : List Nat := allSites.filter (fun s => t.site s == .enabled)

/-- N, the number of ENABLED sites. -/
def TdUnit.enabledCount (t : TdUnit) : Nat := t.enabledSites.length

/-! ## The operator line (R183, R187) -/

/-- Queue a notice: at the newest end, or discarded and counted when 16 wait (R187). -/
def Blocks.note (b : Blocks) (n : Notice) : Blocks :=
  if b.op.notices.length < Config.noticeCapacity then { b with op := { b.op with notices := b.op.notices ++ [n] } }
  else { b with op := { b.op with overflowMark := true, overflowCount := min 255 (b.op.overflowCount + 1) } }

/-- Queue a reply (R184). -/
def Blocks.reply (b : Blocks) (r : Reply) : Blocks := { b with op := { b.op with replies := b.op.replies ++ [r] } }

/-- The RESTART reply has been sent, and the warm reset it asked for is to be taken (R192). -/
def OperatorLine.restartReady (o : OperatorLine) : Bool := o.restarting && o.beforeReset == 0

/-- When the line is free, the next line begins: a reply before any notice; a notice begun with the overflow
mark set carries the count and clears both (R183, R187). None begins between the RESTART reply and its warm reset: what
is queued then goes out after the reset (R192). -/
def OperatorLine.begin (o : OperatorLine) : OperatorLine :=
  if o.restartReady then o
  else match o.sending, o.replies, o.notices with
  | some _, _, _ => o
  | none, r :: rs, _ => { o with sending := some (.reply r), replies := rs }
  | none, [], n :: ns =>
    { o with sending := some (.notice n (if o.overflowMark then some o.overflowCount else none)), notices := ns,
             overflowMark := false, overflowCount := 0 }
  | none, [], [] => o

/-- `OperatorLine.begin` of the blocks. -/
def Blocks.beginLine (b : Blocks) : Blocks := { b with op := b.op.begin }

/-! ## The cell ports (R113, R194) -/

/-- Give a message to the handler port. -/
def Blocks.toHandler (b : Blocks) (m : HandlerMsg) : Blocks :=
  { b with ports := { b.ports with toHandler := b.ports.toHandler ++ [m] } }

/-- Give a message to the tester port. -/
def Blocks.toTester (b : Blocks) (m : TesterMsg) : Blocks :=
  { b with ports := { b.ports with toTester := b.ports.toTester ++ [m] } }

/-- Whether a port's receiver ignores bytes after a discarded message (R194). -/
def CellPorts.ignoring (p : CellPorts) : Port → Bool
  | .handler => p.handlerIgnoring
  | .tester => p.testerIgnoring

/-- Set or clear that mark. -/
def CellPorts.setIgnoring (p : CellPorts) (v : Bool) : Port → CellPorts
  | .handler => { p with handlerIgnoring := v }
  | .tester => { p with testerIgnoring := v }

/-! ## Time (R2, R38, R92, R128) -/

/-- TEST_BUSY stands at its active level (R113, R128). -/
def Ctx.busyActive (c : Ctx) : Bool := c.pins.testBusy == c.cfg.busyActiveHigh

/-- What `ms` milliseconds do to the counts that follow the clock: the soak runs down while SOAKING (R92), the
busy time of a touchdown in TESTING grows while TEST_BUSY is active (R128), and while WITHDRAWN the rejoin accumulator
grows by as much of the time as the line stands idle, and holds its value for the rest (R38; log 3). -/
def Blocks.elapse (c : Ctx) (ms : Nat) (b : Blocks) : Blocks :=
  { b with
    setup := if b.setup.thermal.phase == .soaking then
        { b.setup with thermal := { b.setup.thermal with soak := b.setup.thermal.soak - ms } }
      else b.setup
    td := match b.td.touchdown with
      | some t => if t.stage == .testing && c.busyActive then { b.td with touchdown := some { t with busy := t.busy + ms } }
        else b.td
      | none => b.td
    link := if b.link.state == .withdrawn then { b.link with rejoinAcc := b.link.rejoinAcc + min ms (Config.lineIdleMs c.now ms) } else b.link }

/-- The floor clock `ms` later: it counts to 2^48 - 1 (R2); past that its reading is a free value. -/
def clockAfter (clock ms : Nat) : Nat :=
  if clock + ms < Config.clockEnd then clock + ms else (Config.clockPastEnd (clock + ms)).toNat

/-- The part runs: it has started, it is in no CONFIG_FAULT, and RESET_N is not held (R190 to R192). -/
def State.live (s : State) : Bool := s.run == .running && !s.pins.resetHeld

/-- Time passes: the floor clock runs whenever the part has power, the blocks' counts only while it runs (R2,
R190). -/
def State.elapse (s : State) (ms : Nat) : State :=
  if s.run == .off then s
  else { s with
    clock := clockAfter s.clock ms
    blocks := if s.run == .running then s.blocks.elapse s.ctx ms else s.blocks }

/-- Time passes until the floor clock reads `t`; nothing passes when it reads `t` or more already. -/
def State.elapseTo (s : State) (t : Nat) : State := if s.clock < t then s.elapse (t - s.clock) else s

/-- A command taken by the blocks while the part runs: their rule is applied, and the operator line begins its
next line if it is free. While the part does not run, the command is not taken (R190 to R192). -/
def State.take (s : State) (rule : Ctx → Blocks → Blocks) : State :=
  if s.live then { s with blocks := (rule s.ctx s.blocks).beginLine } else s

end Sys2Proof.Machine
end

