-- ==== Sys2Proof/Decode.lean ====
section
/-! DEFINITION. From bytes and characters to commands, and from what the part sends to bytes: identifiers and
frame data (R20, 11.1, R193), cell port messages (11.2, R194), request lines (R183, R184). The opcode table
gives its rows no bits, so no table word spells a command. -/

namespace Sys2Proof

open Sys2Proof.Machine

/-! ## Numbers in bytes, most significant first (chapter 11) -/

/-- The `k` bytes of a number, most significant first. -/
def beBytes : Nat → Nat → List Byte
  | 0, _ => []
  | k + 1, n => BitVec.ofNat 8 (n / 256 ^ k) :: beBytes k (n % 256 ^ k)

/-- The number some bytes carry, most significant first. -/
def beNat (l : List Byte) : Nat := l.foldl (fun acc x => acc * 256 + x.toNat) 0

/-- `len` bytes at an offset, as a number. -/
def field (l : List Byte) (off len : Nat) : Nat := beNat ((l.drop off).take len)

/-- A 24-bit two's-complement number (R193). -/
def signed24 (n : Nat) : Int := if n < 8388608 then (n : Int) else (n : Int) - 16777216

/-- The 24-bit two's-complement code of a number (R193). -/
def unsigned24 (x : Int) : Nat := (x % 16777216).toNat

/-! ## Identifiers (R20) -/

/-- The number of an identifier (R20). -/
def composeIdentifier (cls kind key station : Nat) : Nat := cls * 262144 + kind * 16384 + key * 64 + station

/-- Bits 19 and 18 of an identifier (11.1). -/
def identClass (i : Nat) : Nat := i / 262144 % 4
/-- Bits 17 to 14. -/
def identKind (i : Nat) : Nat := i / 16384 % 16
/-- Bits 13 to 6. -/
def identKey (i : Nat) : Nat := i / 64 % 256
/-- Bits 5 to 0. -/
def identStation (i : Nat) : Nat := i % 64

/-- The segment number of a DOSSIER frame, which is its key (R69). -/
def DossierSegment.number : DossierSegment → Nat
  | .identity .. => 1
  | .route .. => 2
  | .summary seg .. => seg
  | .unnumbered key => key

/-- The class of a frame's kind (R20). -/
def frameClass : FrameData → Nat
  | .hold .. | .clear .. | .object .. => 0
  | .award .. | .dossier _ | .accept .. | .take .. | .decline .. | .recall .. => 1
  | .offer _ | .bid .. => 2
  | .rollcall | .intent .. | .shipped .. | .dispose .. | .disposed .. => 3

/-- The kind code of a frame within its class (R20). -/
def frameKind : FrameData → Nat
  | .hold .. => 0
  | .clear .. => 1
  | .object .. => 2
  | .award .. => 0
  | .dossier _ => 1
  | .accept .. => 2
  | .take .. => 3
  | .decline .. => 4
  | .recall .. => 5
  | .offer _ => 0
  | .bid .. => 1
  | .rollcall => 0
  | .intent .. => 1
  | .shipped .. => 2
  | .dispose .. => 3
  | .disposed .. => 4

/-- The key of a frame: the segment number, the priority class, or the cost in steps of 256 s up to 255; 0 for
every other kind (R20, R55). -/
def frameKey : FrameData → Nat
  | .dossier seg => seg.number
  | .offer o => o.priority
  | .bid _ _ cost => min 255 (cost / 256)
  | _ => 0

/-- The identifier of a frame sent by a station (R20). -/
def frameIdentifier (station : Nat) (f : FrameData) : Nat :=
  composeIdentifier (frameClass f) (frameKind f) (frameKey f) station

/-! ## Frame data (11.1) -/

/-- The three bytes of one insertion of segment 2. -/
def insertionBytes (p : Nat × Nat) : List Byte := beBytes 1 p.1 ++ beBytes 2 p.2

/-- The 16 data bytes of a DOSSIER frame (11.1, R193). -/
def segmentBytes : DossierSegment → List Byte
  | .identity lot product family priority qty len next disposed count =>
    beBytes 4 lot ++ beBytes 2 product ++ beBytes 3 family ++ beBytes 1 priority ++ beBytes 2 qty ++ beBytes 1 len ++
      beBytes 1 next ++ beBytes 1 disposed ++ beBytes 1 count
  | .route lot ins => beBytes 4 lot ++ (ins.map insertionBytes).flatten
  | .summary _ no station declared adj good rejects voidFinal scrapped =>
    beBytes 1 no ++ beBytes 1 station ++ beBytes 2 declared ++ beBytes 3 (unsigned24 adj) ++ beBytes 2 good ++
      beBytes 2 rejects ++ beBytes 2 voidFinal ++ beBytes 2 scrapped ++ [0]
  | .unnumbered _ => List.replicate 16 0

/-- The data bytes of a frame (11.1, R193). -/
def frameBytes : FrameData → List Byte
  | .hold family lot raiser | .clear family lot raiser => beBytes 3 family ++ beBytes 4 lot ++ beBytes 1 raiser
  | .object lot reason objected => beBytes 4 lot ++ beBytes 1 reason ++ beBytes 1 objected
  | .award lot station | .accept lot station | .take lot station | .decline lot station | .recall lot station =>
    beBytes 4 lot ++ beBytes 1 station
  | .dossier seg => segmentBytes seg
  | .offer o =>
    beBytes 4 o.lot ++ beBytes 2 o.product ++ beBytes 3 o.family ++ beBytes 1 (o.insertion * 16 + o.priority) ++
      beBytes 2 o.units ++ beBytes 1 o.packageClass ++ beBytes 1 o.band ++ beBytes 2 o.program
  | .bid lot offerer cost => beBytes 4 lot ++ beBytes 1 offerer ++ beBytes 2 cost
  | .rollcall => []
  | .intent lot family => beBytes 4 lot ++ beBytes 3 family
  | .shipped lot family good => beBytes 4 lot ++ beBytes 3 family ++ beBytes 2 good
  | .dispose lot kind disposition requester =>
    beBytes 4 lot ++ beBytes 1 kind ++ beBytes 1 disposition ++ beBytes 1 requester
  | .disposed lot kind result requester => beBytes 4 lot ++ beBytes 1 kind ++ beBytes 1 result ++ beBytes 1 requester

/-- The data of a DOSSIER frame by its key (11.1). -/
def segmentOf (key : Nat) (d : List Byte) : DossierSegment :=
  if key == 1 then
    .identity (field d 0 4) (field d 4 2) (field d 6 3) (field d 9 1) (field d 10 2) (field d 12 1) (field d 13 1)
      (field d 14 1) (field d 15 1)
  else if key == 2 then
    .route (field d 0 4) [(field d 4 1, field d 5 2), (field d 7 1, field d 8 2), (field d 10 1, field d 11 2),
      (field d 13 1, field d 14 2)]
  else if 3 ≤ key ∧ key ≤ 5 then
    .summary key (field d 0 1) (field d 1 1) (field d 2 2) (signed24 (field d 4 3)) (field d 7 2) (field d 9 2)
      (field d 11 2) (field d 13 2)
  else .unnumbered key

/-- The data length of a kind (11.1); none for a class and kind that is unassigned (R20). -/
def kindLength : Nat → Nat → Option Nat
  | 0, 0 => some 8
  | 0, 1 => some 8
  | 0, 2 => some 6
  | 1, 0 => some 5
  | 1, 1 => some 16
  | 1, 2 => some 5
  | 1, 3 => some 5
  | 1, 4 => some 5
  | 1, 5 => some 5
  | 2, 0 => some 16
  | 2, 1 => some 7
  | 3, 0 => some 0
  | 3, 1 => some 7
  | 3, 2 => some 9
  | 3, 3 => some 7
  | 3, 4 => some 7
  | _, _ => none

/-- The data of a frame by class, kind and key, when the combination is assigned and the length is the kind's
(R31). -/
def frameData? (cls kind key : Nat) (d : List Byte) : Option FrameData :=
  if kindLength cls kind == some d.length then
    match cls, kind with
    | 0, 0 => some (.hold (field d 0 3) (field d 3 4) (field d 7 1))
    | 0, 1 => some (.clear (field d 0 3) (field d 3 4) (field d 7 1))
    | 0, 2 => some (.object (field d 0 4) (field d 4 1) (field d 5 1))
    | 1, 0 => some (.award (field d 0 4) (field d 4 1))
    | 1, 1 => some (.dossier (segmentOf key d))
    | 1, 2 => some (.accept (field d 0 4) (field d 4 1))
    | 1, 3 => some (.take (field d 0 4) (field d 4 1))
    | 1, 4 => some (.decline (field d 0 4) (field d 4 1))
    | 1, 5 => some (.recall (field d 0 4) (field d 4 1))
    | 2, 0 => some (.offer ⟨field d 0 4, field d 4 2, field d 6 3, field d 9 1 / 16, field d 9 1 % 16, field d 10 2,
        field d 12 1, field d 13 1, field d 14 2⟩)
    | 2, 1 => some (.bid (field d 0 4) (field d 4 1) (field d 5 2))
    | 3, 0 => some .rollcall
    | 3, 1 => some (.intent (field d 0 4) (field d 4 3))
    | 3, 2 => some (.shipped (field d 0 4) (field d 4 3) (field d 7 2))
    | 3, 3 => some (.dispose (field d 0 4) (field d 4 1) (field d 5 1) (field d 6 1))
    | 3, 4 => some (.disposed (field d 0 4) (field d 4 1) (field d 5 1) (field d 6 1))
    | _, _ => none
  else none

/-- The command that hearing a frame's data from a station is. -/
def heardCommand (src : Nat) : FrameData → Instr
  | .hold family lot raiser => .holdHeard src family lot raiser
  | .clear family lot raiser => .clearHeard src family lot raiser
  | .object lot reason objected => .objectHeard src lot reason objected
  | .award lot winner => .awardHeard src lot winner
  | .dossier seg => .dossierHeard src seg
  | .accept lot offerer => .acceptHeard src lot offerer
  | .take lot offerer => .takeHeard src lot offerer
  | .decline lot offerer => .declineHeard src lot offerer
  | .recall lot winner => .recallHeard src lot winner
  | .offer o => .offerHeard src o
  | .bid lot offerer cost => .bidHeard src lot offerer cost
  | .rollcall => .rollcallHeard src
  | .intent lot family => .intentHeard src lot family
  | .shipped lot family good => .shippedHeard src lot family good
  | .dispose lot kind disposition requester => .disposeHeard src lot kind disposition requester
  | .disposed lot kind result requester => .disposedHeard src lot kind result requester

/-- The checks of R31 on a frame received whole by station `own`: the command it is, delivered or discarded. -/
def receiveFrame (own ident : Nat) (d : List Byte) : Instr :=
  let src := identStation ident
  match frameData? (identClass ident) (identKind ident) (identKey ident) d with
  | some f =>
    if 1 ≤ src ∧ src ≤ 62 ∧ src ≠ own then heardCommand src f else .frameDiscarded (identClass ident) (identKind ident) src
  | none => .frameDiscarded (identClass ident) (identKind ident) src

/-! ## Cell port messages (11.2, R194) -/

/-- The bytes of a message: type, length, data and the byte that makes the sum 0 modulo 256 (11.2). -/
def portMessage (type : Nat) (d : List Byte) : List Byte :=
  let body := BitVec.ofNat 8 type :: BitVec.ofNat 8 d.length :: d
  body ++ [BitVec.ofNat 8 (256 - (body.map BitVec.toNat).sum % 256)]

/-- A site mask: bit s - 1 for site s (11.2). -/
def siteMask (sites : List Nat) : Nat := (sites.map (fun s => 2 ^ (s - 1))).sum

/-- The byte of a cup (11.2). -/
def cupByte : Cup → Nat
  | .none => 0
  | .bin n => n
  | .void => 16
  | .scrap => 17

/-- The bytes of a message to the handler (11.2). -/
def handlerBytes : HandlerMsg → List Byte
  | .sort cups => portMessage 0x19 (cups.map (fun x => BitVec.ofNat 8 (cupByte x)))
  | .setpoint b => portMessage 0x1A (beBytes 1 (bandCode b))
  | .lotEnd => portMessage 0x1B []

/-- The bytes of a message to the tester (11.2). -/
def testerBytes : TesterMsg → List Byte
  | .load slot program => portMessage 0x29 (beBytes 1 slot ++ beBytes 2 program)
  | .cancel slot => portMessage 0x2A (beBytes 1 slot)
  | .evict slot => portMessage 0x2B (beBytes 1 slot)
  | .select slot => portMessage 0x2C (beBytes 1 slot)
  | .check => portMessage 0x2D []
  | .tdStart seq sites => portMessage 0x2E (beBytes 1 seq ++ beBytes 1 (siteMask sites))

/-- The message a type byte and data bytes are on a port, when the table gives the type for the port and the
length for the type (R194). -/
def portCommand? (port : Port) (type : Nat) (d : List Byte) : Option Instr :=
  match port, type, d with
  | .handler, 0x11, [m] => some (.tdReady m)
  | .handler, 0x12, [] => some .sorted
  | .handler, 0x13, [] => some .lotEmpty
  | .handler, 0x14, [x] => some (.atTemp x.toNat)
  | .handler, 0x15, [] => some .tempLost
  | .tester, 0x21, [x] => some (.loaded x.toNat)
  | .tester, 0x22, [x] => some (.loadFailed x.toNat)
  | .tester, 0x23, [x] => some (.cancelled x.toNat)
  | .tester, 0x24, [x] => some (.evicted x.toNat)
  | .tester, 0x25, [x] => some (.selected x.toNat)
  | .tester, 0x26, [] => some .checkPass
  | .tester, 0x27, [] => some .checkFail
  | .tester, 0x28, q :: rest => if rest.length == 8 then some (.tdResult q.toNat (rest.map BitVec.toNat)) else none
  | _, _, _ => none

/-- The command that a run of bytes ending in its check byte is on a port: the message, or the discard of it
(R194). -/
def receiveMessage (port : Port) (bytes : List Byte) : Instr :=
  match bytes with
  | type :: len :: rest =>
    match portCommand? port type.toNat rest.dropLast with
    | some i =>
      if len.toNat + 1 == rest.length && (bytes.map BitVec.toNat).sum % 256 == 0 then i else .portMessageDiscarded port
    | none => .portMessageDiscarded port
  | _ => .portMessageDiscarded port

/-! ## Request lines (R183, R184) -/

/-- The words of a line: runs of characters other than the space. -/
def wordsOf : List Char → List Char → List (List Char)
  | acc, [] => if acc.isEmpty then [] else [acc.reverse]
  | acc, ch :: rest =>
    if ch == ' ' then (if acc.isEmpty then wordsOf [] rest else acc.reverse :: wordsOf [] rest)
    else wordsOf (ch :: acc) rest

/-- A decimal number of 1 to 10 digits without sign (R184). -/
def number? (w : List Char) : Option Nat :=
  if !w.isEmpty && decide (w.length ≤ 10) && w.all (fun ch => decide (48 ≤ ch.toNat ∧ ch.toNat ≤ 57)) then
    some (w.foldl (fun n ch => n * 10 + (ch.toNat - 48)) 0)
  else none

/-- The numbers of all parameters, when each is one (R184). -/
def numbers? (ws : List (List Char)) : Option (List Nat) := ws.mapM number?

/-- The hold kind a word names (R13). -/
def holdKindOfWord (w : List Char) : Option HoldKind :=
  match String.ofList w with
  | "YIELD" => some .yield
  | "BIN" => some .bin
  | "SITES" => some .sites
  | "RECON" => some .recon
  | "SETUP" => some .setup
  | "THERMAL" => some .thermal
  | "IDENT" => some .ident
  | "RESTART" => some .restart
  | "FAMILY" => some .family
  | "OPERATOR" => some .operator
  | _ => none

/-- The disposition a word names (R145). -/
def dispositionOfWord (w : List Char) : Option Disposition :=
  match String.ofList w with
  | "RESUME" => some .resume
  | "ACCEPT_COUNT" => some .acceptCount
  | "SCRAP" => some .scrap
  | _ => none

/-- The STATUS subject a word names (R186). -/
def subjectOfWord (w : List Char) : Option StatusSubject :=
  match String.ofList w with
  | "LOT" => some .lot
  | "CELL" => some .cell
  | "LINK" => some .link
  | "FAMILY" => some .family
  | "RELEASED" => some .released
  | _ => none

/-- A request whose parameters are all numbers: the command, when their count is right (R184). -/
def numericRequest (name : String) (ns : List Nat) : Option Instr :=
  match name, ns with
  | "ENTER", [lot, product, qty, family, priority] => some (.enter lot product qty family priority)
  | "ARRIVE", [lot] => some (.arrive lot)
  | "RECALL", [lot] => some (.recall lot)
  | "REOFFER", [lot] => some (.reoffer lot)
  | "PAUSE", [] => some .pauseWalk
  | "CONTINUE", [] => some .continueWalk
  | "ABORT", [] => some .abortSetup
  | "PRELOAD", [slot, program] => some (.preload slot program)
  | "EVICT", [slot] => some (.evict slot)
  | "START", [] => some .startCell
  | "STOP", [] => some .stopCell
  | "ABORT_TD", [] => some .abortTd
  | "SITE_ENABLE", [site] => some (.siteEnable site)
  | "SITE_DISABLE", [site] => some (.siteDisable site)
  | "HOLD", [lot] => some (.holdLot lot)
  | "PURGE", [family, lot] => some (.purge family lot)
  | "RESTART", [] => some .restart
  | _, _ => none

/-- The request names whose parameters are all numbers, or that take none (R184). -/
def numericNames : List String :=
  ["ENTER", "ARRIVE", "RECALL", "REOFFER", "PAUSE", "CONTINUE", "ABORT", "PRELOAD", "EVICT", "START", "STOP", "ABORT_TD",
    "SITE_ENABLE", "SITE_DISABLE", "HOLD", "PURGE", "RESTART"]

/-- The command a line of words is (R184). -/
def requestOfWords (ws : List (List Char)) : Option Instr :=
  match ws with
  | [] => none
  | w :: params =>
    let name := String.ofList w
    if name == "STATUS" then
      some (match params with
        | [s] => .status (subjectOfWord s) none
        | [s, l] => match number? l with
          | some n => .status (subjectOfWord s) (some n)
          | none => .malformedRequest .statusForm
        | _ => .malformedRequest .statusForm)
    else if name == "DISPOSE" then
      some (match params with
        | [l, k, d] => match number? l with
          | some n => .dispose n (holdKindOfWord k) (dispositionOfWord d)
          | none => .malformedRequest .requestForm
        | _ => .malformedRequest .requestForm)
    else if numericNames.contains name then
      some (((numbers? params).bind (numericRequest name)).getD (.malformedRequest .requestForm))
    else some (.malformedRequest .unknownName)

/-- The command that the characters received up to a carriage return are (R183, R184): control characters are
discarded, more than 80 characters make a line too long, also where all are spaces (DESIGN CHOICE, log 101), and a shorter line of
spaces is no request. -/
def lineCommand (chars : List Char) : Option Instr :=
  let kept := chars.filter (fun ch => decide (32 ≤ ch.toNat))
  if 80 < kept.length then some (.malformedRequest .tooLong)
  else requestOfWords (wordsOf [] (kept.map Char.toUpper))

/-! ## The opcode table's words -/

/-- The command a word of the opcode table's bits spells: none, since the table gives its rows no bits. -/
def decodeTableWord (_nbits _w : Nat) : Option Instr := none

end Sys2Proof
end

