-- ==== Sys2Proof/Machine/Flags.lean ====
section
/-! DEFINITION. The conditions the blocks derive from their state: custody, commitments, the cell queue, held
lots and held families, the link state, FEED. -/

namespace Sys2Proof.Machine

/-- The ten states that carry custody (R3). -/
def LotState.custody : LotState → Bool
  | .inboundPending | .inbound => false
  | .awaiting | .offered | .awarded | .outbound | .queued | .setup | .inTest | .closing | .finished | .releasing => true

/-- The inbound states (R3). -/
def LotState.isInbound (st : LotState) : Bool := !st.custody

/-- The states that count as commitments (R6). -/
def LotState.committed : LotState → Bool
  | .inboundPending | .inbound | .queued | .setup | .inTest | .closing => true
  | .awaiting | .offered | .awarded | .outbound | .finished | .releasing => false

/-- The record carries custody. -/
def LotRecord.inCustody (r : LotRecord) : Bool := r.state.custody

/-- The lot is held: its hold list has at least one open hold (1.5). -/
def LotRecord.held (r : LotRecord) : Bool := !r.holds.isEmpty

/-- An open hold of a kind. -/
def LotRecord.hold? (r : LotRecord) (k : HoldKind) : Option Hold := r.holds.find? (fun h => h.kind == k)

/-- A hold of the kind is open. -/
def LotRecord.hasHold (r : LotRecord) (k : HoldKind) : Bool := (r.hold? k).isSome

/-- The record has an open family-scope hold (R158). -/
def LotRecord.familyScope (r : LotRecord) : Bool := r.holds.any (fun h => h.scope == .family)

/-- The station's commitments (R6). -/
def Blocks.commitments (b : Blocks) : Nat := b.bids.length + (b.lots.filter (fun r => r.state.committed)).length

/-- Lot records plus bid records (R6). -/
def Blocks.places (b : Blocks) : Nat := b.lots.length + b.bids.length

/-- The order of the cell queue: priority class, arrival stamp, lot id (R7). -/
def queueLe (x y : LotRecord) : Bool :=
  decide (x.priority < y.priority) || (x.priority == y.priority &&
    (decide (x.arrival.getD 0 < y.arrival.getD 0) || (x.arrival.getD 0 == y.arrival.getD 0 && decide (x.lot ≤ y.lot))))

/-- The cell queue (R7). -/
def Blocks.queue (b : Blocks) : List LotRecord := sortBy queueLe (b.lots.filter (fun r => r.state == .queued))

/-- The link state two counters stand for (R35). -/
def linkStateOf (txErr rxErr : Nat) : LinkState :=
  if 230 ≤ txErr then .withdrawn
  else if 140 ≤ txErr ∨ 140 ≤ rxErr then .quiet
  else if 80 ≤ txErr ∨ 80 ≤ rxErr then .warned
  else .normal

/-- The link is NORMAL or WARNED (R43, R47). -/
def LinkCtl.mayOffer (l : LinkCtl) : Bool := l.state == .normal || l.state == .warned

/-- A family is listed: some entry carries it (R156). -/
def FamilyUnit.listed (f : FamilyUnit) (family : Nat) : Bool := f.entries.any (fun e => e.family == family)

/-- A family is held at this station: listed, or either flag set (R157). -/
def FamilyUnit.holdsFamily (f : FamilyUnit) (family : Nat) : Bool := f.listed family || f.saturated || f.unsettled

/-- The entry of a key. -/
def FamilyUnit.entry? (f : FamilyUnit) (family lot : Nat) : Option FamilyEntry :=
  f.entries.find? (fun e => e.family == family && e.lot == lot)

/-- The record owns a local entry of its family (R163). -/
def Blocks.ownsEntry (b : Blocks) (r : LotRecord) : Bool :=
  b.family.entries.any (fun e => e.isLocal && e.family == r.family && e.lot == r.lot)

/-- A lot record is offerable (R43). -/
def Blocks.offerable (b : Blocks) (r : LotRecord) : Bool :=
  r.state == .awaiting && !r.held && !r.stranded && r.deadline.isNone && b.link.mayOffer &&
    !b.family.saturated && !b.family.unsettled

/-- A lot record is releasable (R172). -/
def Blocks.releasable (c : Ctx) (b : Blocks) (r : LotRecord) : Bool :=
  r.state == .finished && !r.held && !b.family.holdsFamily r.family && b.link.state != .withdrawn &&
    (match r.releaseRetry with | none => true | some t => decide (t ≤ c.now))

/-- A touchdown is in TESTING or SORTING (R119). -/
def TdUnit.moving (t : TdUnit) : Bool :=
  match t.touchdown with
  | some td => td.stage == .testing || td.stage == .sorting
  | none => false

/-- FEED: asserted while a lot is in IN_TEST with no open hold and the inhibit latch is clear (R118); low while
the part does not run and while RESET_N is held (R190, R192). -/
def State.feed (s : State) : Bool :=
  s.live && !s.blocks.td.latch && s.blocks.lots.any (fun r => r.state == .inTest && !r.held)

/-- A reply is being sent (R183). -/
def OperatorLine.replying (o : OperatorLine) : Bool :=
  match o.sending with
  | some (.reply _) => true
  | _ => false

end Sys2Proof.Machine
end

