-- ==== Sys2Proof/Machine/Slots.lean ====
section
/-! DEFINITION. The six transmit slots (R24 to R30): which frames their owners have due, placing, displacing,
granting, cancelling, and what the dispatch unit, the release unit, the family hold list and the hold evaluator
do with a frame that leaves its slot unsent. -/

namespace Sys2Proof.Machine

/-! ## Frames and slots -/

/-- Some slot holds a frame that `p` picks. -/
def Blocks.inSlot (b : Blocks) (p : Frame → Bool) : Bool :=
  b.link.slots.any (fun x => match x with | some e => p e.frame | none => false)

/-- The index of the lowest-numbered EMPTY slot (R24). -/
def firstEmpty (slots : List (Option SlotEntry)) : Option Nat := slots.findIdx? (fun x => x.isNone)

/-- Cancel the frame of every slot that `p` picks: a PENDING one leaves its slot, an ON_WIRE one gets the cancel mark
(R30). -/
def Blocks.cancelSlots (b : Blocks) (p : SlotEntry → Bool) : Blocks :=
  { b with link := { b.link with slots := b.link.slots.map (fun x => match x with
      | some e => if p e then (if e.onWire then some { e with cancelMark := true } else none) else some e
      | none => none) } }

/-- Cancel every frame that `p` picks (R30). -/
def Blocks.cancelFrames (b : Blocks) (p : Frame → Bool) : Blocks := b.cancelSlots (fun e => p e.frame)

/-- Put a frame into a slot as PENDING, with the next placement number (R20, R24). -/
def Blocks.fillSlot (c : Ctx) (b : Blocks) (i : Nat) (f : Frame) : Blocks :=
  { b with link := { b.link with
      slots := b.link.slots.set i (some ⟨f, frameIdentifier c.own f.data, b.link.placements + 1, false, false⟩)
      placements := b.link.placements + 1 } }

/-- The frame is an OFFER or a BID (R36). -/
def Frame.isOfferOrBid (f : Frame) : Bool :=
  match f.data with
  | .offer _ | .bid .. => true
  | _ => false

/-- The frame is the OFFER of a lot. -/
def Frame.isOffer (lot : Nat) (f : Frame) : Bool :=
  match f.data with
  | .offer o => o.lot == lot
  | _ => false

/-- The frame is this station's BID for a lot. -/
def Frame.isBid (lot : Nat) (f : Frame) : Bool :=
  match f.data with
  | .bid l _ _ => l == lot
  | _ => false

/-- The frame is the AWARD of a lot. -/
def Frame.isAward (lot : Nat) (f : Frame) : Bool :=
  match f.data with
  | .award l _ => l == lot
  | _ => false

/-- The frame is a DOSSIER segment of a lot. -/
def Frame.isDossier (lot : Nat) (f : Frame) : Bool :=
  f.lot == lot && (match f.data with | .dossier _ => true | _ => false)

/-- The frame is the INTENT of a lot. -/
def Frame.isIntent (lot : Nat) (f : Frame) : Bool :=
  match f.data with
  | .intent l _ => l == lot
  | _ => false

/-- The frame is the ROLLCALL. -/
def Frame.isRollcall (f : Frame) : Bool :=
  match f.data with
  | .rollcall => true
  | _ => false

/-- The frame is this station's DISPOSE. -/
def Frame.isDispose (f : Frame) : Bool :=
  match f.data with
  | .dispose .. => true
  | _ => false

/-- The frame is the HOLD or the CLEAR of a key (R159). -/
def Frame.isOfKey (family lot : Nat) (f : Frame) : Bool :=
  match f.data with
  | .hold fa l _ | .clear fa l _ => fa == family && l == lot
  | _ => false

/-- The frame is the HOLD of a key. -/
def Frame.isHoldOf (family lot : Nat) (f : Frame) : Bool :=
  match f.data with
  | .hold fa l _ => fa == family && l == lot
  | _ => false

/-- The answer a frame of the custody unit is, if it is one (R68). -/
def Frame.answer? (f : Frame) : Option AnswerKind :=
  if f.owner == .custody then
    match f.data with
    | .accept .. => some .accept
    | .take .. => some .take
    | .decline .. => some .decline
    | .recall .. => some .recall
    | .object .. => some .object
    | _ => none
  else none

/-- The frame is the answer of a kind for a lot. -/
def Frame.isAnswer (lot : Nat) (k : AnswerKind) (f : Frame) : Bool := f.lot == lot && f.answer? == some k

/-- The frame is the release unit's objection for a lot and station (R175). -/
def Frame.isObjection (lot station : Nat) (f : Frame) : Bool :=
  f.owner == .release && (match f.data with | .object l _ s => l == lot && s == station | _ => false)

/-! ## Frames due (R29) -/

/-- Code of an OBJECT reason (11.1). -/
def reasonCode : ObjectReason → Nat
  | .duplicate => 1
  | .family => 2

/-- The frame of a due answer (R68). -/
def Answer.frame (a : Answer) : Frame :=
  ⟨.custody, a.lot, match a.kind with
    | .accept => .accept a.lot a.station
    | .take => .take a.lot a.station
    | .decline => .decline a.lot a.station
    | .recall => .recall a.lot a.station
    | .object => .object a.lot (reasonCode .duplicate) a.station⟩

/-- Segment `k` of a lot's dossier (R69, R193). -/
def LotRecord.segment (r : LotRecord) (k : Nat) : DossierSegment :=
  if k == 1 then
    .identity r.lot r.product r.family r.priority r.entryQty r.route.length (r.nextInsertion.getD 0) r.disposedHolds
      (r.summaries.length + 2)
  else if k == 2 then
    .route r.lot ((List.range 4).map (fun i => match r.route[i]? with | some st => (bandCode st.band, st.program) | none => (0, 0)))
  else match r.summaries[k - 3]? with
    | some m => .summary k m.insertionNo m.station m.declared m.adj m.good m.rejects m.voidFinal m.scrapped
    | none => .unnumbered k

/-- The custody unit's next frame due: the oldest due answer not in a slot, else the segment of the dossier
being sent (R68, R70). -/
def Blocks.custodyDue (b : Blocks) : Option Frame :=
  match b.custody.answers.find? (fun a => !b.inSlot (Frame.isAnswer a.lot a.kind)) with
  | some a => some a.frame
  | none =>
    match b.custody.sendList.head?.bind b.lot? with
    | some r => match r.dossierSend with
      | some (.sending k) =>
        if b.inSlot (Frame.isDossier r.lot) then none else some ⟨.custody, r.lot, .dossier (r.segment k)⟩
      | _ => none
    | none => none

/-- The dispatch unit's next AWARD due, of the lowest lot id (DESIGN CHOICE, log 21): an AWARD naming the peer, or this station
after a self-award (R42, R63, R64). -/
def Blocks.awardFrame? (c : Ctx) (b : Blocks) : Option Frame :=
  (b.lots.find? (fun r => r.awardDue && !b.inSlot (Frame.isAward r.lot))).map
    (fun r => ⟨.dispatch, r.lot, .award r.lot (r.peer.getD c.own)⟩)

/-- The family hold list's next frame due: a local HOLD in entry order, then a CLEAR of the clear-due list, then, once
every due HOLD and CLEAR has been told sent, the answer the roll-call cursor stands at, which would overtake a CLEAR by its
identifier; none for a key that has a frame in a slot (R159, R166). -/
def Blocks.familyDue (c : Ctx) (b : Blocks) : Option Frame :=
  match b.family.entries.find? (fun e => e.isLocal && e.holdDue && !b.inSlot (Frame.isOfKey e.family e.lot)) with
  | some e => some ⟨.family, e.lot, .hold e.family e.lot c.own⟩
  | none =>
    match b.family.clearDue.find? (fun k => !b.inSlot (Frame.isOfKey k.1 k.2)) with
    | some k => some ⟨.family, k.2, .clear k.1 k.2 c.own⟩
    | none =>
      match b.family.cursor with
      | some cu =>
        if cu.placed || cu.waitsFor.isSome || !b.family.clearDue.isEmpty ||
            b.family.entries.any (fun e => e.isLocal && e.holdDue) || b.inSlot (Frame.isOfKey cu.family cu.lot) then none
        else some ⟨.family, cu.lot, .hold cu.family cu.lot c.own⟩
      | none => none

/-- The release unit's next objection due (R175). -/
def Blocks.objectionDue (b : Blocks) : Option Frame :=
  (b.release.objections.find? (fun o => !b.inSlot (Frame.isObjection o.lot o.station))).map
    (fun o => ⟨.release, o.lot, .object o.lot (reasonCode o.reason) o.station⟩)

/-- The class 0 or 1 frame an owner has due and not in a slot (R29). -/
def Blocks.nextDue (c : Ctx) (b : Blocks) : Block → Option Frame
  | .custody => b.custodyDue
  | .dispatch => b.awardFrame? c
  | .family => b.familyDue c
  | .release => b.objectionDue
  | .evaluator => none

/-- What the owner notes when its due frame takes a slot: the roll-call cursor has its answer placed (R166). -/
def Blocks.notePlaced (b : Blocks) (f : Frame) : Blocks :=
  match b.family.cursor, f.data with
  | some cu, .hold fa l _ =>
    if fa == cu.family && l == cu.lot then { b with family := { b.family with cursor := some { cu with placed := true } } } else b
  | _, _ => b

/-! ## Slot requests and grants (R29) -/

/-- The slot request of a block joins the list behind those of its class; a block has at most one, which keeps the class it was
made with, though a frame of another class be due by then (R29; DESIGN CHOICE, log 73). -/
def Blocks.request (b : Blocks) (o : Block) (cls : Nat) : Blocks :=
  if b.link.requests.any (fun q => q.1 == o) then b
  else { b with link := { b.link with
    requests := b.link.requests.filter (fun q => decide (q.2 ≤ cls)) ++ [(o, cls)] ++
      b.link.requests.filter (fun q => decide (cls < q.2)) } }

/-- Grant EMPTY slots to the standing requests, first to last: the owner places its due frame, and asks again
when it has more; an owner with none due passes the grant on (R29). The number bounds the grants made. -/
def Blocks.serveGrants (c : Ctx) : Nat → Blocks → Blocks
  | 0, b => b
  | k + 1, b =>
    match b.link.requests, firstEmpty b.link.slots with
    | (o, _) :: rest, some i =>
      let b := { b with link := { b.link with requests := rest } }
      match b.nextDue c o with
      | none => Blocks.serveGrants c k b
      | some f =>
        let b := (b.fillSlot c i f).notePlaced f
        match b.nextDue c o with
        | some f' => Blocks.serveGrants c k (b.request o (frameClass f'.data))
        | none => Blocks.serveGrants c k b
    | _, _ => b

/-- Enough grants for six slots and every block's request. -/
def grantRounds : Nat := 16

/-! ## Frames of classes 2 and 3 that leave their slot unsent (R27, R28, R36) -/

/-- Drop the bid record of a lot and cancel its BID; an own bid of an OFFERED lot becomes NONE (R57, R58). -/
def Blocks.dropBid (b : Blocks) (lot : Nat) : Blocks :=
  let b := { b with bids := b.bids.filter (fun r => r.lot != lot) }
  (b.cancelFrames (Frame.isBid lot)).modLot lot (fun r => { r with offer := r.offer.map (fun o => { o with own := none }) })

/-- An OFFER that has not reached the floor: the own bid is dropped and the record stands in AWAITING with a
re-offer deadline (R45). -/
def Blocks.offerBack (c : Ctx) (b : Blocks) (lot : Nat) : Blocks :=
  match b.lot? lot with
  | some r =>
    if r.state == .offered || r.state == .awaiting then
      (b.dropBid lot).modLot lot (fun r => { r with
        state := .awaiting, offer := none, deadline := some ⟨.reoffer, c.now + c.cfg.reofferInterval * 1000⟩ })
    else b
  | none => b

/-- An intent window is abandoned: the INTENT is cancelled, the record returns to FINISHED, and the retry time
is the one given (R174). -/
def Blocks.abandonWindow (b : Blocks) (lot : Nat) (cause : AbandonCause) (retry : Option Nat) : Blocks :=
  match b.lot? lot with
  | some r =>
    if r.state == .releasing then
      ((b.cancelFrames (Frame.isIntent lot)).modLot lot (fun r => { r with
        state := .finished, intent := none, deadline := none, releaseRetry := retry })).note (.releaseAbandoned lot cause)
    else b
  | none => b

/-- The SHIPPED of this ring entry is the frame a slot holds (R178). -/
def RingEntry.isOf (y : RingEntry) (e : SlotEntry) : Bool := y.placement == some e.placement

/-- The SHIPPED of a released ring entry has been displaced: it is placed again 1 s later (R178). -/
def Blocks.shippedDisplaced (c : Ctx) (b : Blocks) (e : SlotEntry) : Blocks :=
  { b with release := { b.release with ring := b.release.ring.map (fun y =>
      if y.isOf e then { y with retry := some (c.now + Config.retryMs), placement := none } else y) } }

/-- The slot holds the request's own DISPOSE, not that of an earlier request (R154; log 62). -/
def RemoteDisposition.isOf (q : RemoteDisposition) (e : SlotEntry) : Bool := e.frame.isDispose && e.placement == q.placement

/-- The pending remote disposition's own DISPOSE is this slot's frame. -/
def Blocks.remoteIsOf (b : Blocks) (e : SlotEntry) : Bool := b.remote.any (fun q => q.isOf e)

/-- The pending remote disposition ends as NOT_SENT (R154). -/
def Blocks.remoteNotSent (b : Blocks) : Blocks :=
  match b.remote with
  | some q => ({ b with remote := none }).note (.disposeResult q.lot q.kind q.disposition .notSent)
  | none => b

/-- The owner of a class 2 or 3 frame is told displaced or removed: the OFFER is retried after the re-offer
interval (R45), the bid is withdrawn (R57), the ROLLCALL and the SHIPPED are placed again 1 s later (R165,
R178), the window of the INTENT is abandoned as NOT_SENT (R173, R174), the pending request whose DISPOSE it is ends as
NOT_SENT (R154), the DISPOSED is not placed again (R153). -/
def Blocks.toldUnsent (c : Ctx) (b : Blocks) (e : SlotEntry) : Blocks :=
  match e.frame.data with
  | .offer o => b.offerBack c o.lot
  | .bid lot _ _ => b.dropBid lot
  | .rollcall => if b.family.rollcallDue then
      { b with family := { b.family with rollcallRetry := some (c.now + Config.retryMs) } } else b
  | .intent lot _ => b.abandonWindow lot .notSent (some (c.now + Config.retryMs))
  | .shipped .. => b.shippedDisplaced c e
  | .dispose .. => if b.remoteIsOf e then b.remoteNotSent else b
  | _ => b

/-! ## Placing (R24, R27, R28, R37) -/

/-- Place a class 2 or 3 frame: standing requests come first; the frame takes the lowest EMPTY slot or is
refused, and an OFFER or BID is refused in QUIET, any frame in WITHDRAWN (R24, R28, R36, R37). The flag says
that it was placed. -/
def Blocks.placeLow (c : Ctx) (b : Blocks) (f : Frame) : Blocks × Bool :=
  let b := b.serveGrants c grantRounds
  if b.link.state == .withdrawn || (b.link.state == .quiet && f.isOfferOrBid) then (b, false)
  else match firstEmpty b.link.slots with
    | some i => (b.fillSlot c i f, true)
    | none => (b, false)

/-- Of two slots, the one whose frame is displaced first: the higher identifier, then the higher placement
number (R27). -/
def displacedFirst (x y : Nat × SlotEntry) : Nat × SlotEntry :=
  if y.2.identifier < x.2.identifier ∨ (y.2.identifier = x.2.identifier ∧ y.2.placement ≤ x.2.placement) then x else y

/-- The slot of the class 2 or 3 frame that a class 0 or 1 frame displaces, with its index (R27). -/
def victim (slots : List (Option SlotEntry)) : Option (Nat × SlotEntry) :=
  (slots.zipIdx.filterMap (fun p => match p.1 with
    | some e => if !e.onWire && decide (2 ≤ frameClass e.frame.data) then some (p.2, e) else none
    | none => none)).foldl (fun acc x => match acc with | some y => some (displacedFirst y x) | none => some x) none

/-- Place the class 0 and 1 frames an owner has due: into an EMPTY slot, else displacing a PENDING class 2 or 3
frame, else by a slot request; none while WITHDRAWN, and none past a standing request of the owner (R24, R27,
R29, R37). An owner whose request stands waits for its grant with every frame it has due, also where a class 2 or 3 frame has
become PENDING that a further frame could displace (DESIGN CHOICE, log 73). The number bounds the frames placed. -/
def Blocks.pumpOwner (c : Ctx) (o : Block) : Nat → Blocks → Blocks
  | 0, b => b
  | k + 1, b =>
    if b.link.state == .withdrawn || b.link.requests.any (fun q => q.1 == o) then b
    else match b.nextDue c o with
      | none => b
      | some f =>
        match firstEmpty b.link.slots with
        | some i => Blocks.pumpOwner c o k ((b.fillSlot c i f).notePlaced f)
        | none => match victim b.link.slots with
          | some (i, e) => Blocks.pumpOwner c o k (((b.fillSlot c i f).notePlaced f).toldUnsent c e)
          | none => b.request o (frameClass f.data)

/-- Grants, then every block's due frames: holds first, then objections, custody answers and dossiers, awards;
then the slots this may have freed are granted (R29). -/
def Blocks.pump (c : Ctx) (b : Blocks) : Blocks :=
  let b := b.serveGrants c grantRounds
  let b := Blocks.pumpOwner c .family grantRounds b
  let b := Blocks.pumpOwner c .release grantRounds b
  let b := Blocks.pumpOwner c .custody grantRounds b
  let b := Blocks.pumpOwner c .dispatch grantRounds b
  b.serveGrants c grantRounds

end Sys2Proof.Machine
end

