-- ==== Sys2Proof/Machine/Raise.lean ====
section
/-! DEFINITION. Raising a hold of scope LOT on a record (R142), which every block's rules end in, and the parts of
the touchdown cycle that follow a change of the inhibit latch (R116, R117, R123). -/

namespace Sys2Proof.Machine

/-! ## Raising a hold -/

/-- A hold raised on a lot whose dossier is being sent, or waits its turn, stops it: the pending segment is
cancelled and the record leaves the send list (R70). -/
def Blocks.stopDossier (b : Blocks) (lot : Nat) : Blocks :=
  if b.custody.sendList.contains lot then
    let b := { b with custody := { b.custody with sendList := b.custody.sendList.filter (fun l => l != lot) } }
    (b.cancelFrames (Frame.isDossier lot)).modLot lot (fun r => { r with dossierSend := some .stopped })
  else b

/-- Set the inhibit latch (R116). -/
def Blocks.setLatch (b : Blocks) : Blocks := { b with td := { b.td with latch := true } }

/-- The hold record R142 writes. -/
def holdRecord (c : Ctx) (r : LotRecord) (k : HoldKind) (scope : Scope) (trigger : Option (Int × Int)) (bins : List Nat) : Hold :=
  ⟨k, r.insertionNo, c.now, scope, trigger, bins⟩

/-- Write a hold of kind `k` into the hold list, queue HOLD_RAISED, and let the neighbours act on the held lot:
a lot in test has its latch set, an AWARDED lot's dossier stops, a lot in RELEASING returns to FINISHED, its RELEASE_ABANDONED
queued after HOLD_RAISED (DEDUCED, log 82). Not
carried out for a record that is not in custody, is marked ending, or already has the kind open (R142). -/
def Blocks.raiseHold (c : Ctx) (b : Blocks) (lot : Nat) (k : HoldKind) (scope : Scope) (trigger : Option (Int × Int))
    (bins : List Nat) : Blocks :=
  match b.lot? lot with
  | none => b
  | some r =>
    if !r.inCustody || r.ending || r.hasHold k then b
    else
      let b := b.modLot lot (fun r => { r with holds := r.holds ++ [holdRecord c r k scope trigger bins] })
      let b := b.note (.holdRaised lot k scope r.insertionNo trigger)
      match r.state with
      | .inTest | .closing => b.setLatch
      | .awarded => b.stopDossier lot
      | .releasing => b.abandonWindow lot (.hold k) none
      | _ => b

/-- Raise a hold of scope LOT with no trigger values (R143). -/
def Blocks.raise (c : Ctx) (b : Blocks) (lot : Nat) (k : HoldKind) : Blocks := b.raiseHold c lot k .lot none []

/-- The SITES hold of R114 and R141, with the enabled and the minimum sites. -/
def Blocks.raiseSites (c : Ctx) (b : Blocks) (lot : Nat) : Blocks :=
  b.raiseHold c lot .sites .lot (some ((b.td.enabledCount : Int), (c.cfg.minSites : Int))) []

/-- The RECON hold of R121 and R131, with placed_main and declared in qty plus adj. -/
def Blocks.raiseRecon (c : Ctx) (b : Blocks) (lot : Nat) (a : Account) : Blocks :=
  b.raiseHold c lot .recon .lot (some ((a.placedMain : Int), a.expected)) []

/-! ## Starting a touchdown (R123), the latch (R117) -/

/-- The next sequence number: 255 is followed by 0 (R113). -/
def nextSequence (n : Nat) : Nat := (n + 1) % 256

/-- Send TD_START for a touchdown: TESTING, the deadline written, busy time 0 (R123). -/
def Blocks.startTouchdown (c : Ctx) (b : Blocks) (r : LotRecord) (t : Touchdown) : Blocks :=
  let seq := nextSequence b.td.sequence
  let limit := 4 * (c.insertion r.product r.insertionNo).nominalMs
  let t := { t with stage := .testing, sequence := some seq, deadline := some (c.now + limit), busy := 0 }
  ({ b with td := { b.td with sequence := seq, touchdown := some t } }).toTester (.tdStart seq t.active)

/-- A PARKED touchdown is started at the moment the latch clears (R117, R123). -/
def Blocks.startParked (c : Ctx) (b : Blocks) (r : LotRecord) : Blocks :=
  match b.td.touchdown with
  | some t => if t.stage == .parked then b.startTouchdown c r t else b
  | none => b

/-- A clearing event of the latch: it clears when a lot is in IN_TEST or CLOSING, that lot has no open hold and
neither fault line is asserted; a parked touchdown is then started (R117). -/
def Blocks.clearLatch (c : Ctx) (b : Blocks) : Blocks :=
  match b.testLot? with
  | some r =>
    if r.held || c.pins.testerFault || c.pins.handlerFault then b
    else Blocks.startParked c { b with td := { b.td with latch := false } } r
  | none => b

/-- A lot enters IN_TEST from SETUP: a SITES hold is raised when too few sites are ENABLED, before the entry is
taken as a clearing event of the latch (R103, R114, R117). -/
def Blocks.enterTest (c : Ctx) (b : Blocks) (lot : Nat) : Blocks :=
  let b := b.modLot lot (fun r => { r with state := .inTest })
  let b := if b.td.enabledCount < c.cfg.minSites then b.raiseSites c lot else b
  b.clearLatch c

end Sys2Proof.Machine
end

