-- ==== Sys2Proof/Machine/Engine.lean ====
section
/-! DEFINITION. The changeover engine's rules (chapter 5): the program slot table, the walk of a setup chain, its
steps, the chain end, faults and abort. -/

namespace Sys2Proof.Machine

/-! ## Program slots (R87, R88) -/

/-- The entry of a program slot, numbered from 1. -/
def SetupUnit.slot? (u : SetupUnit) (n : Nat) : Option ProgSlot := if n == 0 then none else u.slots[n - 1]?

/-- The state of a program slot; INVALID for a slot the tester has not. -/
def SetupUnit.slotState (u : SetupUnit) (n : Nat) : ProgState := ((u.slot? n).map (·.state)).getD .invalid

/-- The slot numbers, ascending. -/
def SetupUnit.slotNumbers (u : SetupUnit) : List Nat := (List.range u.slots.length).map (· + 1)

/-- The RESIDENT slot that holds a program, if one does (R87). -/
def SetupUnit.residentSlot? (u : SetupUnit) (program : Nat) : Option Nat :=
  u.slotNumbers.find? (fun n => match u.slot? n with
    | some p => p.state == .resident && p.program == some program
    | none => false)

/-- A program counts as resident (R87). -/
def SetupUnit.resident (u : SetupUnit) (program : Nat) : Bool := (u.residentSlot? program).isSome

/-- The programs of the RESIDENT slots. -/
def SetupUnit.residentPrograms (u : SetupUnit) : List Nat :=
  u.slots.filterMap (fun p => if p.state == .resident then p.program else none)

/-- Write a slot's state and program: it joins the LRU order at the newest end as it leaves EMPTY and leaves
the order as it becomes EMPTY; the active slot is none once it is not RESIDENT; the correlation time is absent
once the slot is EMPTY or its program is another (R87, R88). -/
def SetupUnit.setSlot (u : SetupUnit) (n : Nat) (st : ProgState) (program : Option Nat) : SetupUnit :=
  match u.slot? n with
  | none => u
  | some old =>
    let correlated := if st == .empty || old.program != program then none else old.correlated
    { u with
      slots := u.slots.set (n - 1) ⟨st, if st == .empty then none else program, correlated⟩
      lru := if st == .empty then u.lru.filter (· != n)
        else if old.state == .empty then u.lru.filter (· != n) ++ [n] else u.lru
      active := if u.active == some n && st != .resident then none else u.active }

/-- A slot becomes INVALID and keeps its program id (R87). -/
def SetupUnit.invalidate (u : SetupUnit) (n : Nat) : SetupUnit :=
  u.setSlot n .invalid ((u.slot? n).bind (·.program))

/-- The tester has reported slot `n` selected: it is active if RESIDENT and moves to the newest end of the LRU
order, else no slot is active; a change to another slot clears the timer ring (R88, R89, R128). -/
def Blocks.selectSlot (b : Blocks) (n : Nat) : Blocks :=
  if b.setup.slotState n == .resident then
    { b with
      setup := { b.setup with active := some n, lru := b.setup.lru.filter (· != n) ++ [n] }
      td := if b.setup.active == some n then b.td else { b.td with timerRing := [] } }
  else { b with setup := { b.setup with active := none } }

/-- Send a tester command and have it in flight (R89). -/
def Blocks.sendCommand (b : Blocks) (cmd : TesterCmd) (o : Origin) : Blocks :=
  let b := b.toTester (match cmd with
    | .load s p => .load s p
    | .evict s => .evict s
    | .select s => .select s
    | .check => .check)
  { b with setup := { b.setup with inFlight := some (cmd, o) } }

/-- The command in flight ends. -/
def SetupUnit.endCommand (u : SetupUnit) : SetupUnit := { u with inFlight := none, operatorDeadline := none }

/-! ## What the walk reads -/

/-- The local recipe's insertion for a lot's next insertion. -/
def Ctx.lotInsertion (c : Ctx) (r : LotRecord) : RecipeInsertion := c.insertion r.product r.insertionNo

/-- The insertion's program: the route's, which the record carries (R94, R14). -/
def LotRecord.program (r : LotRecord) : Nat := (r.nextStep?.map (·.program)).getD 0

/-- The insertion's band. -/
def LotRecord.band (r : LotRecord) : Band := (r.nextStep?.map (·.band)).getD .cold

/-- The full soak of the insertion in ms (R94). -/
def Ctx.fullSoak (c : Ctx) (r : LotRecord) : Nat := (c.lotInsertion r).soakMinutes * 60000

/-- Target of a LOAD_PROGRAM step (R94). -/
def stepProgram (st : StepRecord) (program : Nat) : Nat := if st.param == 0 then program else st.param

/-- Target of a SET_BAND step (R94). -/
def stepBand (st : StepRecord) (band : Band) : Band := (bandOfCode st.param).getD band

/-- Target of a CONFIRM_KIT step (R94). -/
def stepKit (st : StepRecord) (packageClass : Nat) : Nat := if st.param == 0 then packageClass else st.param

/-- The program's slot is RESIDENT and active, and its last correlation time is present and at most `hours`
hours old, `hours` not 0 (R54, R97). -/
def SetupUnit.correlationFresh (u : SetupUnit) (now program hours : Nat) : Bool :=
  hours != 0 && (match u.active with
    | some n => match u.slot? n with
      | some p => p.state == .resident && p.program == some program &&
          (match p.correlated with | some t => decide (now ≤ t + hours * 3600000) | none => false)
      | none => false
    | none => false)

/-- The skip test of a step's kind against the present setup (R97). -/
def stepSkips (c : Ctx) (u : SetupUnit) (r : LotRecord) (st : StepRecord) : Bool :=
  match st.kind with
  | some .loadProgram => u.resident (stepProgram st r.program)
  | some .setBand => u.thermal.band == some (stepBand st r.band) && u.thermal.phase == .ready
  | some .confirmKit => u.kitTaken == stepKit st (c.recipe r.product).packageClass
  | some .correlate => u.correlationFresh c.now r.program st.param
  | some .waitOperator => false
  | none => true

/-- The current step's record, while the walk is at a step. -/
def SetupUnit.currentStep? (c : Ctx) (u : SetupUnit) : Option StepRecord :=
  u.walk.bind (fun w => w.current.map c.stepRecord)

/-- A step of the kind is in flight (R95). -/
def SetupUnit.inStepOf (c : Ctx) (u : SetupUnit) (k : StepKind) : Bool :=
  match u.walk with
  | some w => w.inStep && (match u.currentStep? c with | some st => st.kind == some k | none => false)
  | none => false

/-- A step is in flight (R95). -/
def SetupUnit.inStep (u : SetupUnit) : Bool := match u.walk with | some w => w.inStep | none => false

/-- The chain end is in progress: the engine is at END in RUNNING or PAUSING (R103). -/
def SetupUnit.atEnd (u : SetupUnit) : Bool :=
  match u.walk with
  | some w => w.begun && w.current.isNone && (u.engine == .running || u.engine == .pausing)
  | none => false

/-- Change the walk record. -/
def SetupUnit.modWalk (u : SetupUnit) (f : Walk → Walk) : SetupUnit := { u with walk := u.walk.map f }

/-- Change the setup unit. -/
def Blocks.modSetup (b : Blocks) (f : SetupUnit → SetupUnit) : Blocks := { b with setup := f b.setup }

/-! ## Thermal state (R91, R99) -/

/-- Send SETPOINT: the band is written, the phase is RAMPING, soak remaining 0 (R91). -/
def Blocks.sendSetpoint (b : Blocks) (band : Band) : Blocks :=
  (b.modSetup (fun u => { u with thermal := ⟨some band, .ramping, 0⟩ })).toHandler (.setpoint band)

/-- The soak begins: SOAKING with the full soak, or READY at once when it is 0 (R91, R99). -/
def Thermal.startSoak (t : Thermal) (full : Nat) : Thermal :=
  if full == 0 then { t with phase := .ready, soak := 0 } else { t with phase := .soaking, soak := full }

/-- The thermal phase after a timeout, an abort, or a fault of the walk's own: RAMPING becomes UNKNOWN, SOAKING
becomes AT_SETPOINT with the full soak reloaded (R105, R106). -/
def Thermal.afterStop (t : Thermal) (full : Nat) : Thermal :=
  match t.phase with
  | .ramping => { t with phase := .unknown }
  | .soaking => { t with phase := .atSetpoint, soak := full }
  | _ => t

/-! ## Faults (R106) -/

/-- What a fault does to the tester command in flight of the walk (R89, R106): a timeout sends CANCEL for a
LOAD; every cause ends the command and leaves the slot of a LOAD or EVICT INVALID. -/
def Blocks.faultCommand (b : Blocks) (cause : FaultCause) : Blocks :=
  match b.setup.inFlight with
  | some (cmd, o) =>
    if o == .operator then b
    else
      let b := b.modSetup SetupUnit.endCommand
      match cmd with
      | .load n _ =>
        let b := if cause == .timeout then b.toTester (.cancel n) else b
        b.modSetup (fun u => u.invalidate n)
      | .evict n => b.modSetup (fun u => u.invalidate n)
      | .select _ | .check => b
  | none => b

/-- What a fault does to the thermal state when a SET_BAND step is in flight (R106). -/
def faultThermal (cause : FaultCause) (full : Nat) (t : Thermal) : Thermal :=
  match cause with
  | .testerFault => t
  | .handlerFault => { t with phase := .unknown }
  | _ => t.afterStop full

/-- The engine faults: what is in flight ends as R106 states, the engine is FAULTED with its cause and step, a
SETUP_FAULT notice is queued and a SETUP hold is raised. A deferred HANDLER_FAULT is the cause recorded, also when KIT_CHANGED
or TEMP_LOST faults the engine before it is taken (DESIGN CHOICE, log 68: R106 says so of a timeout and of TESTER_FAULT). -/
def Blocks.faultEngine (c : Ctx) (b : Blocks) (cause : FaultCause) : Blocks :=
  match b.setup.walk with
  | none => b
  | some w =>
    let full := match b.lot? w.lot with | some r => c.fullSoak r | none => 0
    let b := if b.setup.inStepOf c .setBand then
        b.modSetup (fun u => { u with thermal := faultThermal cause full u.thermal }) else b
    let b := b.faultCommand cause
    let recorded := w.deferred.getD cause
    let b := b.modSetup (fun u => { (u.modWalk (fun w => { w with
      inStep := false, deadline := none, deferred := none, fault := some (recorded, w.current) })) with engine := .faulted })
    (b.note (.setupFault w.lot recorded w.current)).raise c w.lot .setup

/-! ## The chain end (R103) -/

/-- The chain end's last point: the engine is IDLE, the walk is discarded and the lot enters IN_TEST (R103). -/
def Blocks.endWalk (c : Ctx) (b : Blocks) (lot : Nat) : Blocks :=
  (b.modSetup (fun u => { u with engine := .idle, walk := none })).enterTest c lot

/-- The walk has reached END: the chain end is made from its first point. -/
def Blocks.chainEnd (c : Ctx) (b : Blocks) : Blocks :=
  match b.setup.walk with
  | none => b
  | some w =>
    let b := b.modSetup (fun u => u.modWalk (fun w => { w with
      current := none, begun := true, inStep := false, deadline := none, endAgain := false }))
    match b.lot? w.lot with
    | none => b
    | some r =>
      match b.setup.residentSlot? r.program with
      | none => b.faultEngine c .programMissing
      | some n =>
        if c.pins.testerFault then b.faultEngine c .testerFault
        else if b.setup.active != some n then
          let b := b.modSetup (fun u => u.modWalk (fun w => { w with deadline := some (c.now + Config.selectionMs) }))
          if b.setup.inFlight.isNone then b.sendCommand (.select n) .chainEnd else b
        else if r.held then b
        else b.endWalk c w.lot

/-- The active slot is the one that holds the program of the lot being set up. -/
def Blocks.programActive (b : Blocks) : Bool :=
  match b.setup.walk.bind (fun w => b.lot? w.lot), b.setup.active with
  | some r, some n => b.setup.residentSlot? r.program == some n
  | _, _ => false

/-- The engine waits at END for the lot to become unheld: the program's slot has been found active, and no selection
deadline runs (R103). -/
def SetupUnit.waitsAtEnd (u : SetupUnit) : Bool :=
  u.engine == .running && u.atEnd && (match u.walk with | some w => w.deadline.isNone | none => false)

/-- While the engine waits at END it checks the active slot again: once that is not the program's slot, the chain end is
to be made again from its first point (R103). -/
def Blocks.watchEnd (b : Blocks) : Blocks :=
  if b.setup.waitsAtEnd && !b.programActive then b.modSetup (fun u => u.modWalk (fun w => { w with endAgain := true })) else b

/-- The lot the engine waits for at END has become unheld: it enters IN_TEST, or the chain end is made again from its first
point when the active slot has changed or the program's slot has left RESIDENT (R103). -/
def Blocks.endUnheld (c : Ctx) (b : Blocks) : Blocks :=
  match b.setup.walk with
  | some w => if w.endAgain || !b.programActive then b.chainEnd c else b.endWalk c w.lot
  | none => b

/-! ## Beginning a step (R97 to R102) -/

/-- The slot a LOAD_PROGRAM step evicts: the oldest INVALID slot, failing that the oldest RESIDENT slot, one
that holds the insertion's program only when no other can be chosen (R98). -/
def SetupUnit.evictee? (u : SetupUnit) (program : Nat) : Option Nat :=
  match u.lru.find? (fun n => u.slotState n == .invalid) with
  | some n => some n
  | none =>
    match u.lru.find? (fun n => u.slotState n == .resident && (u.slot? n).bind (·.program) != some program) with
    | some n => some n
    | none => u.lru.find? (fun n => u.slotState n == .resident)

/-- Send LOAD for a step: the slot is LOADING with the target program (R98). -/
def Blocks.loadSlot (b : Blocks) (n program : Nat) : Blocks :=
  (b.sendCommand (.load n program) .step).modSetup (fun u => u.setSlot n .loading (some program))

/-- The CORRELATE step, once begun: PROGRAM_MISSING, SELECT or CHECK (R101). -/
def Blocks.beginCorrelate (c : Ctx) (b : Blocks) (r : LotRecord) : Blocks :=
  match b.setup.residentSlot? r.program with
  | none => b.faultEngine c .programMissing
  | some n => if b.setup.active == some n then b.sendCommand .check .step else b.sendCommand (.select n) .step

/-- What beginning a step sends (R98 to R102). The flag says that the step completes as it begins: a SET_BAND
step with a soak of 0 found AT_SETPOINT (R99). -/
def Blocks.beginKind (c : Ctx) (b : Blocks) (r : LotRecord) (n : Nat) (st : StepRecord) : Blocks × Bool :=
  match st.kind with
  | some .loadProgram =>
    match b.setup.slotNumbers.find? (fun k => b.setup.slotState k == .empty) with
    | some k => (b.loadSlot k (stepProgram st r.program), false)
    | none => match b.setup.evictee? r.program with
      | some k => (b.sendCommand (.evict k) .step, false)
      | none => (b, false)
  | some .setBand =>
    let target := stepBand st r.band
    if b.setup.thermal.band == some target && b.setup.thermal.phase == .atSetpoint then
      let full := c.fullSoak r
      (b.modSetup (fun u => { u with thermal := u.thermal.startSoak full }), full == 0)
    else (b.sendSetpoint target, false)
  | some .confirmKit =>
    (b.note (.kitChange r.lot (stepKit st (c.recipe r.product).packageClass) b.setup.kitTaken), false)
  | some .correlate => (b.beginCorrelate c r, false)
  | some .waitOperator => (b.note (.operatorWait r.lot n), false)
  | none => (b, false)

/-- The marks a step of the kind sets as it completes or is skipped by its test (R95, R97). -/
def Walk.marked (w : Walk) (st : StepRecord) : Walk :=
  match st.kind with
  | some .setBand => { w with bandMark := true }
  | some .confirmKit => { w with kitMark := true }
  | _ => w

/-- Visit the records from `pos` on until a step begins, the engine faults, or the chain end is made (R97). A step that
begins with a fault line asserted is in flight as the engine faults, with nothing sent (R95, R97, R106). The
number is how many more records may be looked at; the walk count stops the walk before it runs out. -/
def Blocks.visit (c : Ctx) : Nat → Option Nat → Blocks → Blocks
  | _, none, b => b.chainEnd c
  | 0, some _, b => b
  | k + 1, some n, b =>
    match b.setup.walk.bind (fun w => (b.lot? w.lot).map (fun r => (w, r))) with
    | none => b
    | some (w, r) =>
      if w.count = Config.walkLimit then
        (b.modSetup (fun u => u.modWalk (fun w => { w with begun := true }))).faultEngine c .loop
      else
        let st := c.stepRecord n
        let b := b.modSetup (fun u => u.modWalk (fun w => { w with current := some n, begun := true, count := w.count + 1 }))
        if st.estimate == 0 then Blocks.visit c k st.next b
        else if stepSkips c b.setup r st then
          Blocks.visit c k st.next (b.modSetup (fun u => u.modWalk (fun w => w.marked st)))
        else if c.pins.testerFault || c.pins.handlerFault then
          (b.modSetup (fun u => u.modWalk (fun w => { w with inStep := true }))).faultEngine c
            (if c.pins.testerFault then .testerFault else .handlerFault)
        else
          let b := b.modSetup (fun u => u.modWalk (fun w => { w with inStep := true, deadline := some (c.now + st.timeout * 1000) }))
          match b.beginKind c r n st with
          | (b, false) => b
          | (b, true) =>
            Blocks.visit c k st.next (b.modSetup (fun u => u.modWalk (fun w =>
              { w.marked st with inStep := false, deadline := none })))

/-- Enough looks for every walk: sixteen records, and the one that makes it a LOOP. -/
def visitRounds : Nat := 17

/-- Go on from a record: visit it, or make the chain end (R97). -/
def Blocks.walkFrom (c : Ctx) (b : Blocks) (pos : Option Nat) : Blocks := b.visit c visitRounds pos

/-- The step in flight completes: its mark is set, and the engine visits the next record in RUNNING or becomes
PAUSED in PAUSING (R97, R104). -/
def Blocks.completeStep (c : Ctx) (b : Blocks) : Blocks :=
  match b.setup.currentStep? c with
  | none => b
  | some st =>
    let b := b.modSetup (fun u => u.modWalk (fun w => { w.marked st with inStep := false, deadline := none }))
    match b.setup.engine with
    | .running => b.walkFrom c st.next
    | .pausing => b.modSetup (fun u => { u with engine := .paused })
    | _ => b

/-- The start of a walk for the lot that has entered SETUP: the engine is RUNNING at the chain head, which it
visits at once unless an operator command is in flight (R96). -/
def Blocks.startWalk (c : Ctx) (b : Blocks) (lot : Nat) : Blocks :=
  match b.lot? lot with
  | none => b
  | some r =>
    let head := (c.lotInsertion r).chainHead
    let b := b.modSetup (fun u => { u with
      engine := .running
      walk := some ⟨lot, head, false, 0, false, none, false, false, none, none, false⟩ })
    if b.setup.inFlight.isSome then b else b.walkFrom c head

/-- An operator command has ended: a walk that waits to begin visits its head (R96). -/
def Blocks.resumeWaiting (c : Ctx) (b : Blocks) : Blocks :=
  match b.setup.walk with
  | some w => if b.setup.engine == .running && !w.begun then b.walkFrom c w.current else b
  | none => b

/-- A lot enters SETUP from QUEUED: the account is created, the suppressed checks are cleared, and the walk
starts (R8, R9, R96). -/
def Blocks.enterSetup (c : Ctx) (b : Blocks) (lot : Nat) : Blocks :=
  (b.modLot lot (fun r => { r with
    state := .setup, account := some (Account.fresh r.inQty), suppressYield := false, suppressBins := [],
    awardDue := false })).startWalk c lot

/-- Whenever no lot is in SETUP, IN_TEST or CLOSING, the first unheld record of the cell queue enters SETUP (R8). -/
def Blocks.startChoice (c : Ctx) (b : Blocks) : Blocks :=
  if b.cellLot?.isSome then b
  else match b.queue.find? (fun r => !r.held) with
    | some r => b.enterSetup c r.lot
    | none => b

/-- What ABORT and the SCRAP of a lot in SETUP do to what is in flight; the engine becomes IDLE (R105, R107). A touchdown of the lot
that is still in SORTING is left as it is, COUNTED (DESIGN CHOICE, log 89). -/
def Blocks.dropWalk (c : Ctx) (b : Blocks) : Blocks :=
  match b.setup.walk with
  | none => b
  | some w =>
    let full := match b.lot? w.lot with | some r => c.fullSoak r | none => 0
    let b : Blocks := match b.setup.inFlight with
      | some (cmd, o) =>
        if o == .operator then b
        else
          let b := b.modSetup SetupUnit.endCommand
          match cmd with
          | .load n _ => (b.toTester (.cancel n)).modSetup (fun u => u.invalidate n)
          | .evict n => if b.setup.slotState n == .resident then b.modSetup (fun u => u.invalidate n) else b
          | .select _ | .check => b
      | none => b
    b.modSetup (fun u => { u with thermal := u.thermal.afterStop full, engine := .idle, walk := none })

end Sys2Proof.Machine
end

