-- ==== Sys2Proof/Machine/FamilyHolds.lean ====
section
/-! DEFINITION. The family hold list (chapter 8): local entries and their frames, FAMILY holds on custody lots, the
roll call and its answer cursor, and the removal of a lot record with everything that hangs on it (R5, R84). -/

namespace Sys2Proof.Machine

/-- Change the family hold list. -/
def Blocks.modFamily (b : Blocks) (f : FamilyUnit → FamilyUnit) : Blocks := { b with family := f b.family }

/-- Apply a rule to each of some lots in turn. -/
def Blocks.forLots (b : Blocks) (lots : List Nat) (f : Blocks → Nat → Blocks) : Blocks := lots.foldl f b

/-- The lot ids of the table, ascending. -/
def Blocks.lotIds (b : Blocks) : List Nat := b.lots.map (·.lot)

/-! ## A lot becomes unheld (R146, R164) -/

/-- What follows at once when a record's hold list becomes empty: a lot waiting at the chain end enters IN_TEST or has
its chain end made again, a lot in test may have its latch cleared (R103, R117). Starting a queued lot, offering and
releasing are the sweeps that every rule ends in. -/
def Blocks.onUnheld (c : Ctx) (b : Blocks) (lot : Nat) : Blocks :=
  match b.lot? lot with
  | some r =>
    if r.held then b
    else match r.state with
      | .setup => if b.setup.waitsAtEnd then b.endUnheld c else b
      | .inTest | .closing => b.clearLatch c
      | _ => b
  | none => b

/-! ## FAMILY holds (R163, R164) -/

/-- The record is to carry a FAMILY hold (R163). -/
def Blocks.wantsFamilyHold (b : Blocks) (r : LotRecord) : Bool :=
  r.inCustody && !r.ending && b.family.holdsFamily r.family && !b.ownsEntry r

/-- Give one record its FAMILY hold, when it is to carry one and lacks it. -/
def Blocks.applyFamilyHold (c : Ctx) (b : Blocks) (lot : Nat) : Blocks :=
  match b.lot? lot with
  | some r => if b.wantsFamilyHold r then b.raise c lot .family else b
  | none => b

/-- Give every record that is to carry a FAMILY hold one, in ascending lot id. -/
def Blocks.applyFamilyHolds (c : Ctx) (b : Blocks) : Blocks := b.forLots b.lotIds (Blocks.applyFamilyHold c)

/-- Take the FAMILY hold off a record: the disposed hold count rises, HOLD_DISPOSED names AUTO (R164). -/
def Blocks.removeFamilyHold (c : Ctx) (b : Blocks) (lot : Nat) : Blocks :=
  ((b.modLot lot (fun r => { r with
    holds := r.holds.filter (fun h => h.kind != .family), disposedHolds := min 255 (r.disposedHolds + 1) })).note
      (.holdDisposed lot .family none .auto)).onUnheld c lot

/-- Remove one record's FAMILY hold when nothing calls for it any more (R164). -/
def Blocks.endFamilyHold (c : Ctx) (b : Blocks) (lot : Nat) : Blocks :=
  match b.lot? lot with
  | some r =>
    if r.hasHold .family && !r.ending && (!b.family.holdsFamily r.family || b.ownsEntry r) then b.removeFamilyHold c lot else b
  | none => b

/-- Remove the FAMILY holds nothing calls for any more, in ascending lot id (R164). -/
def Blocks.endFamilyHolds (c : Ctx) (b : Blocks) : Blocks := b.forLots b.lotIds (Blocks.endFamilyHold c)

/-! ## Announcements (R46, R157) -/

/-- A family has become listed: the dispatch unit drops its bid records of the family, the hold evaluator
applies the FAMILY holds (R46, R163). -/
def Blocks.announceListed (c : Ctx) (b : Blocks) (family : Nat) : Blocks :=
  let b := (b.bids.filter (fun r => r.family == family)).foldl (fun b r => b.dropBid r.lot) b
  b.applyFamilyHolds c

/-- The lots whose OFFER is PENDING in a slot. -/
def Blocks.pendingOffers (b : Blocks) : List Nat :=
  b.link.slots.filterMap (fun x => match x with
    | some e => match e.frame.data with
      | .offer o => if e.onWire then none else some o.lot
      | _ => none
    | none => none)

/-- SATURATED or UNSETTLED has been set: every OFFER in a PENDING slot is cancelled and handled as displaced,
every bid record is dropped, every custody record comes under R163 (R46). -/
def Blocks.announceFlag (c : Ctx) (b : Blocks) : Blocks :=
  let b := b.pendingOffers.foldl (fun b lot => (b.cancelFrames (Frame.isOffer lot)).offerBack c lot) b
  let b := b.bids.foldl (fun b r => b.dropBid r.lot) b
  b.applyFamilyHolds c

/-! ## The roll call (R165) -/

/-- Place the ROLLCALL that is due; refused, it is placed again 1 s later. -/
def Blocks.placeRollcall (c : Ctx) (b : Blocks) : Blocks :=
  match b.placeLow c ⟨.family, 0, .rollcall⟩ with
  | (b, true) => b.modFamily (fun f => { f with rollcallRetry := none })
  | (b, false) => b.modFamily (fun f => { f with rollcallRetry := some (c.now + Config.retryMs) })

/-- Start a roll call, unless one is due or running. -/
def Blocks.startRollcall (c : Ctx) (b : Blocks) : Blocks :=
  if b.family.rollcallDue || b.family.window.isSome then b
  else (b.modFamily (fun f => { f with rollcallDue := true })).placeRollcall c

/-! ## The answer cursor (R166) -/

/-- The cursor reaches a local entry, and passes over one whose own HOLD is due or in a slot. A HOLD in a slot that is the
answer of an earlier walk, which the cursor waits for, is none of those: it does not answer the present walk. -/
def Blocks.answers (b : Blocks) (waitsFor : Option (Nat × Nat)) (e : FamilyEntry) : Bool :=
  e.isLocal && !e.holdDue && (waitsFor == some (e.family, e.lot) || !b.inSlot (Frame.isHoldOf e.family e.lot))

/-- The entries that stand after a key. -/
def entriesAfter (family lot : Nat) (l : List FamilyEntry) : List FamilyEntry :=
  (l.dropWhile (fun e => !(e.family == family && e.lot == lot))).drop 1

/-- The cursor at the first of some entries that is to be answered, or idle. -/
def Blocks.cursorAt (b : Blocks) (l : List FamilyEntry) (waitsFor : Option (Nat × Nat)) : Blocks :=
  b.modFamily (fun f => { f with cursor := (l.find? (b.answers waitsFor)).map (fun e => ⟨e.family, e.lot, false, waitsFor, none⟩) })

/-- A frame of a key is on the line. -/
def Blocks.keyOnWire (b : Blocks) (family lot : Nat) : Bool :=
  b.link.slots.any (fun x => match x with | some e => e.onWire && e.frame.isOfKey family lot | none => false)

/-- How many of the first `i` entries of a list stay when the entry of a key is removed. -/
def keptBefore (i family lot : Nat) (l : List FamilyEntry) : Nat :=
  ((l.take i).filter (fun e => !(e.family == family && e.lot == lot))).length

/-- The cursor goes on from the place of the entry it stands at: from the place a removed entry had, else from after the
entry (R166). -/
def Blocks.cursorOn (b : Blocks) (cu : Cursor) : Blocks :=
  b.cursorAt (match cu.gone with
    | some i => b.family.entries.drop i
    | none => entriesAfter cu.family cu.lot b.family.entries) none

/-- An entry is about to be removed. When the cursor stands at it, an answer of this walk on the line keeps the cursor at its
place until the outcome has been told; an answer PENDING is cancelled with it, and the cursor goes to the next local entry
(R166). -/
def Blocks.cursorLeaves (b : Blocks) (family lot : Nat) : Blocks :=
  match b.family.cursor with
  | some cu =>
    match cu.gone with
    | some i => b.modFamily (fun f => { f with cursor := some { cu with gone := some (keptBefore i family lot f.entries) } })
    | none =>
      if cu.family == family && cu.lot == lot then
        if cu.placed && b.keyOnWire family lot then
          b.modFamily (fun f => { f with cursor := some { cu with
            gone := some (f.entries.takeWhile (fun e => !(e.family == family && e.lot == lot))).length } })
        else b.cursorAt (entriesAfter family lot b.family.entries) cu.waitsFor
      else b
  | none => b

/-- A HOLD of this station has been told sent: an answer of the present walk moves the cursor, one placed before
a restart does not (R166). -/
def Blocks.cursorSent (b : Blocks) (family lot : Nat) : Blocks :=
  match b.family.cursor with
  | some cu =>
    if cu.waitsFor == some (family, lot) then b.modFamily (fun f => { f with cursor := some { cu with waitsFor := none } })
    else if cu.placed && cu.family == family && cu.lot == lot then b.cursorOn cu
    else b
  | none => b

/-- A cancelled HOLD has left its slot: the cursor no longer waits for an answer placed before a restart, and the answer of a
removed entry moves it (R166). -/
def Blocks.cursorCancelled (b : Blocks) (family lot : Nat) : Blocks :=
  match b.family.cursor with
  | some cu =>
    if cu.waitsFor == some (family, lot) then b.modFamily (fun f => { f with cursor := some { cu with waitsFor := none } })
    else if cu.gone.isSome && cu.family == family && cu.lot == lot then b.cursorOn cu
    else b
  | none => b

/-- A ROLLCALL has been heard: the cursor starts, or starts again, at the first local entry; an answer then
PENDING is cancelled, and one on the line finishes its attempt. -/
def Blocks.startCursor (b : Blocks) : Blocks :=
  match b.family.cursor with
  | some cu =>
    if cu.placed then
      let waits := if b.keyOnWire cu.family cu.lot then some (cu.family, cu.lot) else cu.waitsFor
      (b.cancelFrames (Frame.isHoldOf cu.family cu.lot)).cursorAt b.family.entries waits
    else b.cursorAt b.family.entries cu.waitsFor
  | none => b.cursorAt b.family.entries none

/-! ## Entries made (R158, R160, R162) -/

/-- One ESCAPE notice for each released lot of a new entry's family (R162), in the order of the ring, oldest release first
(DESIGN CHOICE, log 83: R162 gives several of them no order). -/
def Blocks.noteEscapes (b : Blocks) (family lot raiser : Nat) : Blocks :=
  (b.release.ring.filter (fun e => e.family == family)).foldl
    (fun b e => b.note (.escape e.lot e.family e.good e.time lot raiser)) b

/-- A new key was refused for want of a place: the refusal mark is set, and SATURATED if it was clear (R157). -/
def Blocks.refuseEntry (c : Ctx) (b : Blocks) : Blocks :=
  let was := b.family.saturated
  let b := b.modFamily (fun f => { f with saturated := true, refusalMark := true })
  if was then b else b.announceFlag c

/-- Store a new entry in a free place: ESCAPE notices, and the family becomes listed if it was not. -/
def Blocks.storeEntry (c : Ctx) (b : Blocks) (e : FamilyEntry) : Blocks :=
  let was := b.family.listed e.family
  let b := b.modFamily (fun f => { f with entries := f.entries ++ [e] })
  let b := b.noteEscapes e.family e.lot e.raiser
  if was then b else b.announceListed c e.family

/-- A key leaves the clear-due list, its CLEAR cancelled (R159). -/
def Blocks.dropClear (b : Blocks) (family lot : Nat) : Blocks :=
  if b.family.clearDue.contains (family, lot) then
    (b.modFamily (fun f => { f with clearDue := f.clearDue.filter (fun k => k != (family, lot)) })).cancelFrames
      (Frame.isOfKey family lot)
  else b

/-- The list makes a local entry for a lot's family-scope hold (R158); a FAMILY hold of the lot itself is then
removed (R164). -/
def Blocks.makeLocalEntry (c : Ctx) (b : Blocks) (lot : Nat) : Blocks :=
  match b.lot? lot with
  | none => b
  | some r =>
    match b.family.entry? r.family lot with
    | some e =>
      if e.isLocal then b
      else
        let b := b.dropClear r.family lot
        let b := b.modFamily (fun f => { f with entries := f.entries.map (fun e =>
          if e.family == r.family && e.lot == lot then ⟨r.family, lot, c.own, true, .confirmed, c.now, true⟩ else e) })
        b.endFamilyHold c lot
    | none =>
      if b.family.entries.length < Config.familyCapacity then
        let b := b.dropClear r.family lot
        (b.storeEntry c ⟨r.family, lot, c.own, true, .confirmed, c.now, true⟩).endFamilyHold c lot
      else b.refuseEntry c

/-! ## Entries removed (R158, R159, R167) -/

/-- A CLEAR for a key is made due: the HOLD of the key is cancelled; with 16 keys already due the oldest is
dropped with a CLEAR_LOST notice (R159). A CLEAR of the dropped key that is ON_WIRE takes the cancel mark, so that it is not tried
again when its attempt fails (DESIGN CHOICE, log 90: R159 speaks of a pending CLEAR). -/
def Blocks.makeClearDue (b : Blocks) (family lot : Nat) : Blocks :=
  let b := b.cancelFrames (Frame.isHoldOf family lot)
  if b.family.clearDue.contains (family, lot) then b
  else
    let b := if b.family.clearDue.length < Config.clearDueCapacity then b
      else match b.family.clearDue with
        | k :: rest =>
          ((b.modFamily (fun f => { f with clearDue := rest })).cancelFrames (Frame.isOfKey k.1 k.2)).note (.clearLost k.1 k.2)
        | [] => b
    b.modFamily (fun f => { f with clearDue := f.clearDue ++ [(family, lot)] })

/-- The freed place is given to the first custody lot with an open family-scope hold and no local entry (R167). -/
def Blocks.fillGap (c : Ctx) (b : Blocks) : Blocks :=
  match b.lots.find? (fun r => r.inCustody && r.familyScope && !r.ending && !b.ownsEntry r) with
  | some r => if b.family.entries.length < Config.familyCapacity then b.makeLocalEntry c r.lot else b
  | none => b

/-- An entry leaves the list: the cursor leaves it, a local entry's CLEAR becomes due, the freed place is given
away, a roll call is started when SATURATED is set, and FAMILY holds follow (R158, R161, R164, R167, R168). The place is given away,
with the ESCAPE notices of the new entry and the HOLD_DISPOSED of AUTO of its lot, before any lot takes the FAMILY hold that the
removal brings it under, the one that lost the entry among them (DESIGN CHOICE, log 95: R158, R163 and R167 give no order). -/
def Blocks.removeEntry (c : Ctx) (b : Blocks) (family lot : Nat) : Blocks :=
  match b.family.entry? family lot with
  | none => b
  | some e =>
    let b := b.cursorLeaves family lot
    let b := b.modFamily (fun f => { f with entries := f.entries.filter (fun e => !(e.family == family && e.lot == lot)) })
    let b := if e.isLocal then b.makeClearDue family lot else b
    let b := b.fillGap c
    let b := if b.family.saturated then b.startRollcall c else b
    (b.applyFamilyHolds c).endFamilyHolds c

/-- The local entry of a lot is removed when the record has no open family-scope hold left (R158). -/
def Blocks.endLocalEntry (c : Ctx) (b : Blocks) (family lot : Nat) : Blocks :=
  match b.family.entry? family lot with
  | some e => if e.isLocal then b.removeEntry c family lot else b
  | none => b

/-! ## Raising a hold that may have family scope (R142) -/

/-- The recipe's family-scope set names the kind (R13). -/
def recipeScope (r : Recipe) : HoldKind → Scope
  | .yield => if r.familyYield then .family else .lot
  | .bin => if r.familyBin then .family else .lot
  | _ => .lot

/-- Raise a YIELD or BIN hold: with the scope the recipe gives it, and a local entry when it is the lot's first
open hold of family scope (R142, R158). -/
def Blocks.raiseFinding (c : Ctx) (b : Blocks) (lot : Nat) (k : HoldKind) (trigger : Int × Int) (bins : List Nat) : Blocks :=
  match b.lot? lot with
  | none => b
  | some r =>
    let scope := recipeScope (c.recipe r.product) k
    let before := r.familyScope
    let b := b.raiseHold c lot k scope (some trigger) bins
    match b.lot? lot with
    | some r' => if r'.familyScope && !before then b.makeLocalEntry c lot else b
    | none => b

/-! ## Removing a lot record (R5, R84) -/

/-- The record of a lot is removed: its due answers are no longer due and its frames of the transfer are
cancelled (R84), it leaves the send list, and its local entry is removed with a CLEAR (R158). The record goes first, so that
it takes no FAMILY hold (R163) and is not given its own freed place (R167) as the entry goes (DESIGN CHOICE, log 24: R150
names the entry before the record). -/
def Blocks.removeRecord (c : Ctx) (b : Blocks) (lot : Nat) : Blocks :=
  match b.lot? lot with
  | none => b
  | some r =>
    let b := b.dropLot lot
    let b := { b with custody := ⟨b.custody.answers.filter (fun a => a.lot != lot), b.custody.sendList.filter (fun l => l != lot)⟩ }
    let b := b.cancelFrames (fun f => f.lot == lot && f.owner == .custody)
    b.endLocalEntry c r.family lot

end Sys2Proof.Machine
end

