-- ==== Sys2Proof/Machine/Offers.lean ====
section
/-! DEFINITION. The dispatch unit (chapter 3): eligibility and cost of a bid, offering, bid records, the close of a
window, and unsuccessful offers. -/

namespace Sys2Proof.Machine

/-! ## The interest filter (R33) -/

/-- The offer key of product, band code and package class. -/
def offerKey (o : OfferFields) : BitVec 24 := BitVec.ofNat 24 (o.product * 256 + o.band * 64 + o.packageClass)

/-- An entry matches a key in every bit its mask selects. -/
def filterMatches (e : FilterEntry) (key : BitVec 24) : Bool := (key &&& e.mask) == (e.value &&& e.mask)

/-- The verdict: at least one enabled entry matches, or no entry is enabled. -/
def Ctx.passesFilter (c : Ctx) (o : OfferFields) : Bool :=
  c.cfg.filters.all (fun e => !e.enabled) || c.cfg.filters.any (fun e => e.enabled && filterMatches e (offerKey o))

/-! ## The backlog (R49, R50) -/

/-- A DECLINE is due for the lot (R78). -/
def Blocks.declined (b : Blocks) (lot : Nat) : Bool := b.custody.answers.any (fun a => a.lot == lot && a.kind == .decline)

/-- The record contributes to the backlog (R49, R78). -/
def Blocks.contributes (b : Blocks) (r : LotRecord) : Bool :=
  r.state.committed && (r.state != .inboundPending || decide (2 ≤ r.collected)) && !b.declined r.lot

/-- Remaining units (R49). -/
def LotRecord.remaining (r : LotRecord) : Nat :=
  match r.account with
  | some a => (a.expected - (a.placedMain : Int) + (a.voidOpen : Int)).toNat
  | none =>
    if r.state == .inboundPending && decide (r.summaries.length < r.nextInsertion.getD 1 - 1) then r.entryQty else r.inQty

/-- Mean of the touchdown timer ring (R128). -/
def TdUnit.ringMean (t : TdUnit) : Nat := t.timerRing.sum / t.timerRing.length

/-- Touchdown time in ms (R49). -/
def Blocks.touchdownMs (c : Ctx) (b : Blocks) (r : LotRecord) : Nat :=
  if r.state == .inTest && decide (4 ≤ b.td.timerRing.length) then b.td.ringMean else (c.lotInsertion r).nominalMs

/-- Seconds a committed lot still takes on `n` sites (R50). -/
def lotSeconds (units n ms : Nat) : Nat := ceilDiv (ceilDiv units n * ms) 1000

/-- The backlog, saturating (R50). -/
def Blocks.backlog (c : Ctx) (b : Blocks) : Nat :=
  (b.lots.filter b.contributes).foldl (fun acc r => satAdd acc (lotSeconds r.remaining b.td.enabledCount (b.touchdownMs c r))) 0

/-! ## The projected setup (R51, R52) -/

/-- Order of the committed lots other than the one in the cell: priority class, QUEUED lots by arrival stamp,
inbound lots after them, lot id (R51). -/
def projectedLe (x y : LotRecord) : Bool :=
  let ax := (x.state != .queued, x.arrival.getD 0)
  let ay := (y.state != .queued, y.arrival.getD 0)
  if x.priority != y.priority then decide (x.priority < y.priority)
  else if ax.1 != ay.1 then !ax.1
  else if x.state == .queued && ax.2 != ay.2 then decide (ax.2 < ay.2)
  else decide (x.lot ≤ y.lot)

/-- The committed lots in the order of R51. An INBOUND lot whose DECLINE is due, which takes no part in the backlog (R78),
takes no place (DESIGN CHOICE, log 52: R51 orders the committed lots and R78 says nothing of it). -/
def Blocks.committedOrder (b : Blocks) : List LotRecord :=
  let all := b.lots.filter b.contributes
  let inCell (r : LotRecord) : Bool := r.state == .setup || r.state == .inTest || r.state == .closing
  all.filter inCell ++ sortBy projectedLe (all.filter (fun r => !inCell r))

/-- A projected setup: band (none for UNKNOWN), kit, programs. -/
structure Projected where
  band : Option Band
  kit : Nat
  programs : List Nat
  deriving DecidableEq, Repr

/-- The projected setup (R51, R52). -/
def Blocks.projected (c : Ctx) (b : Blocks) : Projected :=
  let lots := b.committedOrder
  match lots.getLast? with
  | some r => ⟨r.nextStep?.map (·.band), (c.recipe r.product).packageClass,
      b.setup.residentPrograms ++ lots.map LotRecord.program⟩
  | none => ⟨if b.setup.thermal.phase == .ready then b.setup.thermal.band else none, b.setup.kitTaken, b.setup.residentPrograms⟩

/-! ## The changeover estimate (R53, R54) -/

/-- An entry of the transition table. -/
def Ctx.transition (c : Ctx) (a z : Band) : Nat := c.cfg.transition.getD ((bandCode a - 1) * 3 + (bandCode z - 1)) 0

/-- Seconds from the projected band to a target; from UNKNOWN the largest entry with that destination. -/
def Ctx.transitionTo (c : Ctx) (band : Option Band) (target : Band) : Nat :=
  match band with
  | some a => c.transition a target
  | none => max (c.transition .cold target) (max (c.transition .room target) (c.transition .hot target))

/-- Amount of one step: 0 when it is skipped (R54). -/
def stepAmount (c : Ctx) (u : SetupUnit) (p : Projected) (ins : RecipeInsertion) (packageClass : Nat) (st : StepRecord) : Nat :=
  if st.estimate == 0 then 0
  else match st.kind with
    | some .loadProgram => if p.programs.contains (stepProgram st ins.program) then 0 else st.estimate
    | some .setBand =>
      let target := stepBand st ins.band
      if p.band == some target then 0 else satAdd (c.transitionTo p.band target) (ins.soakMinutes * 60)
    | some .confirmKit => if p.kit == stepKit st packageClass then 0 else st.estimate
    | some .correlate => if u.correlationFresh c.now ins.program st.param then 0 else st.estimate
    | some .waitOperator => st.estimate
    | none => 0

/-- The changeover sum of a chain walked from `pos` with at most `k` more records; none for a LOOP (R53). -/
def changeover (c : Ctx) (u : SetupUnit) (p : Projected) (ins : RecipeInsertion) (packageClass : Nat) :
    Nat → Option Nat → Nat → Option Nat
  | _, none, acc => some acc
  | 0, some _, _ => none
  | k + 1, some n, acc =>
    let st := c.stepRecord n
    changeover c u p ins packageClass k st.next (satAdd acc (stepAmount c u p ins packageClass st))

/-! ## Eligibility and cost (R47, R48, R55) -/

/-- The insertion of the local recipe an OFFER names, when the recipe agrees with the OFFER (R47). -/
def Ctx.agreedInsertion? (c : Ctx) (o : OfferFields) : Option RecipeInsertion :=
  match c.recipe? o.product with
  | some rec_ =>
    if rec_.packageClass == o.packageClass && o.insertion != 0 then
      match rec_.route[o.insertion - 1]? with
      | some ins => if bandCode ins.band == o.band && ins.program == o.program then some ins else none
      | none => none
    else none
  | none => none

/-- The cost of a bid on an OFFER, or none when the station is not eligible (R47, R53, R55). The flag says that
the offer is this station's own, whose record the identity condition passes over (R48). -/
def Blocks.bidCost? (c : Ctx) (b : Blocks) (o : OfferFields) (own : Bool) : Option Nat :=
  match c.agreedInsertion? o with
  | none => none
  | some ins =>
    if c.passesFilter o && decide (1 ≤ o.units) && c.cfg.bands.contains ins.band && decide (1 ≤ b.td.enabledCount) &&
        decide (b.commitments < Config.commitmentLimit) && decide (b.places < Config.lotCapacity) &&
        decide (b.bids.length < Config.bidCapacity) && !b.family.holdsFamily o.family && b.link.mayOffer &&
        (own || (b.lot? o.lot).isNone) then
      (changeover c b.setup (b.projected c) ins o.packageClass Config.walkLimit ins.chainHead 0).map
        (fun x => satAdd (b.backlog c) x)
    else none

/-- Create a bid record and place its BID; refused, the record is dropped at once (R56, R57). -/
def Blocks.makeBid (c : Ctx) (b : Blocks) (lot offerer family cost : Nat) : Blocks × Bool :=
  match b.placeLow c ⟨.dispatch, lot, .bid lot offerer cost⟩ with
  | (b, true) => ({ b with bids := b.bids ++ [⟨lot, offerer, family, cost, c.now, none⟩] }, true)
  | (b, false) => (b, false)

/-- An OFFER heard from a station is judged: an earlier bid record of the lot is dropped, and a bid is made when
the station is eligible (R47, R48). -/
def Blocks.judgeOffer (c : Ctx) (b : Blocks) (src : Nat) (o : OfferFields) : Blocks :=
  let b := if b.bids.any (fun r => r.lot == o.lot) then b.dropBid o.lot else b
  match b.bidCost? c o false with
  | some cost => (b.makeBid c o.lot src o.family cost).1
  | none => b

/-! ## Offering (R43, R44) -/

/-- The OFFER of a lot (R44). -/
def Ctx.offerFields (c : Ctx) (r : LotRecord) : OfferFields :=
  ⟨r.lot, r.product, r.family, r.nextInsertion.getD 0, r.priority, r.inQty, (c.recipe r.product).packageClass,
    (r.nextStep?.map (fun s => bandCode s.band)).getD 0, r.program⟩

/-- Offer one lot: the OFFER is placed and the record enters OFFERED, with an own bid when the station is
eligible; refused, it waits for the re-offer interval (R44, R45). -/
def Blocks.offerLot (c : Ctx) (b : Blocks) (lot : Nat) : Blocks :=
  match b.lot? lot with
  | none => b
  | some r =>
    if b.offerable r then
      let o := c.offerFields r
      match b.placeLow c ⟨.dispatch, lot, .offer o⟩ with
      | (b, false) => b.offerBack c lot
      | (b, true) =>
        let b := b.modLot lot (fun r => { r with
          state := .offered, deadline := some ⟨.bidWindow, c.now + c.cfg.bidWindow * 1000⟩, offer := some ⟨.pending, none, none⟩ })
        match b.bidCost? c o true with
        | none => b
        | some cost => match b.makeBid c lot c.own r.family cost with
          | (b, true) => b.modLot lot (fun r => { r with offer := r.offer.map (fun f => { f with own := some (.pending, cost) }) })
          | (b, false) => b
    else b

/-- Order of offering: priority class, then lot id (R43). -/
def offerLe (x y : LotRecord) : Bool :=
  decide (x.priority < y.priority) || (x.priority == y.priority && decide (x.lot ≤ y.lot))

/-- Offer every offerable lot in turn (R43). -/
def Blocks.offerLots (c : Ctx) (b : Blocks) : Blocks :=
  b.forLots ((sortBy offerLe (b.lots.filter b.offerable)).map (·.lot)) (Blocks.offerLot c)

/-! ## The end of an offer (R60 to R64) -/

/-- The order of bids: lower cost, at equal cost lower station (R58). -/
def bidLower (x y : Nat × Nat) : Bool := decide (x.1 < y.1) || (x.1 == y.1 && decide (x.2 < y.2))

/-- The offerer takes a bid: it becomes the best when none is present or it is lower (R60). -/
def OfferState.take (o : OfferState) (cost station : Nat) : OfferState :=
  match o.best with
  | some x => if bidLower (cost, station) x then { o with best := some (cost, station) } else o
  | none => { o with best := some (cost, station) }

/-- The dispatch unit ends its part in an offer: own bid record dropped, own BID and OFFER cancelled, offer state
discarded (R61, R77, R150). -/
def Blocks.endOffer (b : Blocks) (lot : Nat) : Blocks := (b.dropBid lot).modLot lot (fun r => { r with offer := none })

/-- An unsuccessful offer: offer attempts rise by 1, the record stands in AWAITING with a re-offer deadline or is
stranded; an AWARD still in a slot is cancelled (R62, R63). -/
def Blocks.unsuccessful (c : Ctx) (b : Blocks) (lot : Nat) : Blocks :=
  match b.lot? lot with
  | none => b
  | some r =>
    let n := min 15 (r.attempts + 1)
    let out := decide (c.cfg.attemptLimit ≤ n)
    let b := (b.cancelFrames (Frame.isAward lot)).modLot lot (fun r => { r with
      state := .awaiting, peer := none, attempts := n, offer := none, awardDue := false, dossierSend := none,
      recallMark := if r.state == .offered then r.recallMark else none,
      stranded := r.stranded || out,
      deadline := if out then none else some ⟨.reoffer, c.now + c.cfg.reofferInterval * 1000⟩ })
    if out then b.note (.stranded lot n) else b

/-- The best bid a window is awarded to at its close: none while the lot is held (R61). This station's own best bid is awarded
whether or not its bid record, which R46, R48 and R59 may have dropped since it was taken, still stands (R61, R64; DESIGN CHOICE,
log 50: with that record gone and 8 commitments the self-award makes nine, of which R6 says that they never stand). -/
def LotRecord.awardee? (r : LotRecord) (o : OfferState) : Option (Nat × Nat) := if r.held then none else o.best

/-- The close of a bid window (R61, R63, R64). -/
def Blocks.closeWindow (c : Ctx) (b : Blocks) (r : LotRecord) : Blocks :=
  match r.offer with
  | none => b
  | some o =>
    if o.frame == .pending then (b.cancelFrames (Frame.isOffer r.lot)).offerBack c r.lot
    else match r.awardee? o with
      | none => (b.endOffer r.lot).unsuccessful c r.lot
      | some (_, st) =>
        if st == c.own then
          ({ b with bids := b.bids.filter (fun x => x.lot != r.lot) }).modLot r.lot (fun r => { r with
            state := .queued, arrival := some c.now, attempts := 0, stranded := false, peer := none, deadline := none,
            offer := none, awardDue := true, recallMark := none })
        else
          (b.endOffer r.lot).modLot r.lot (fun r => { r with
            state := .awarded, peer := some st, deadline := some ⟨.acceptTimeout, c.now + c.cfg.acceptTimeout * 1000⟩,
            awardDue := true, dossierSend := some .waiting, recallMark := none })

/-! ## Bids and awards heard (R58, R59, R60) -/

/-- A BID heard: the bidder drops a beaten record, the offerer takes the bid (R58, R60). -/
def Blocks.judgeBid (c : Ctx) (b : Blocks) (src lot offerer cost : Nat) : Blocks :=
  let beaten := b.bids.any (fun r => r.lot == lot && r.offerer == offerer && bidLower (cost, src) (r.cost, c.own))
  let b := if beaten then b.dropBid lot else b
  if offerer == c.own then
    match b.lot? lot with
    | some r => if r.state == .offered then b.modLot lot (fun r => { r with offer := r.offer.map (·.take cost src) }) else b
    | none => b
  else b

/-- An AWARD heard: the bid record is dropped, or becomes an INBOUND_PENDING record (R59, R71, R15). A BID still PENDING is
cancelled with the record in both cases (DESIGN CHOICE, log 53: R59 says so of an award to another station only). -/
def Blocks.judgeAward (c : Ctx) (b : Blocks) (src lot winner : Nat) : Blocks :=
  match b.bids.find? (fun r => r.lot == lot) with
  | some r =>
    if r.offerer != src then b
    else if winner != c.own then b.dropBid lot
    else
      let b := b.dropBid lot
      if (b.lot? lot).isSome then b else b.addLot { LotRecord.fresh lot .inboundPending with peer := some src }
  | none => b

end Sys2Proof.Machine
end

