-- ==== Sys2Proof/Machine/Custody.lean ====
section
/-! DEFINITION. The custody unit (chapter 4): due answers, the send list, collecting a dossier, and what the frames of
a transfer do. -/

namespace Sys2Proof.Machine

/-! ## Due answers (R68, R84) -/

/-- An answer becomes due; one already due for the lot stays as it is (R68, R82). -/
def Blocks.answerDue (b : Blocks) (lot : Nat) (k : AnswerKind) (station : Nat) : Blocks :=
  if b.custody.answers.any (fun a => a.lot == lot && a.kind == k) then b
  else { b with custody := { b.custody with answers := b.custody.answers ++ [⟨lot, k, station⟩] } }

/-- An answer is no longer due, and is cancelled if pending. -/
def Blocks.dropAnswer (b : Blocks) (lot : Nat) (k : AnswerKind) : Blocks :=
  ({ b with custody := { b.custody with answers := b.custody.answers.filter (fun a => !(a.lot == lot && a.kind == k)) } }).cancelFrames
    (Frame.isAnswer lot k)

/-! ## The send list (R70) -/

/-- The record leaves AWARDED: its segment and its AWARD are cancelled, it leaves the send list, and its award
mark and dossier send are discarded (R63, R70). -/
def Blocks.leaveAwarded (b : Blocks) (lot : Nat) : Blocks :=
  let b := { b with custody := { b.custody with sendList := b.custody.sendList.filter (fun l => l != lot) } }
  (b.cancelFrames (fun f => f.isDossier lot || f.isAward lot)).modLot lot (fun r => { r with awardDue := false, dossierSend := none })

/-- The AWARD of a lot has been told sent: an unheld AWARDED record joins the send list, a held one is STOPPED
(R63, R64, R70). -/
def Blocks.awardSent (b : Blocks) (lot : Nat) : Blocks :=
  match b.lot? lot with
  | none => b
  | some r =>
    let b := b.modLot lot (fun r => { r with awardDue := false })
    if r.state == .awarded && r.awardDue then
      if r.held then b.modLot lot (fun r => { r with dossierSend := some .stopped })
      else { b with custody := { b.custody with sendList := b.custody.sendList ++ [lot] } }
    else b

/-- The first record of the send list starts its dossier when it waits (R70). -/
def Blocks.startDossier (b : Blocks) : Blocks :=
  match b.custody.sendList.head? with
  | some lot => b.modLot lot (fun r => if r.dossierSend == some .waiting then { r with dossierSend := some (.sending 1) } else r)
  | none => b

/-- Segment `k` of a lot's dossier has been told sent: the next becomes due, or the send is DONE (R70). -/
def Blocks.segmentSent (b : Blocks) (lot k : Nat) : Blocks :=
  match b.lot? lot with
  | none => b
  | some r =>
    if r.dossierSend == some (.sending k) then
      if k < r.summaries.length + 2 then b.modLot lot (fun r => { r with dossierSend := some (.sending (k + 1)) })
      else ({ b with custody := { b.custody with sendList := b.custody.sendList.filter (fun l => l != lot) } }).modLot lot
        (fun r => { r with dossierSend := some .done })
    else b

/-! ## Collecting (R71, R72, R73) -/

/-- The checks of segment 1: the ranges of its fields (R193) and those of R71. -/
def identityOk (product family priority entryQty routeLength nextInsertion segmentCount : Nat) : Bool :=
  decide (1 ≤ product) && decide (1 ≤ family) && decide (priority ≤ 3) && decide (1 ≤ entryQty) && decide (entryQty ≤ 60000) &&
    decide (1 ≤ routeLength) && decide (routeLength ≤ 4) && decide (1 ≤ nextInsertion) && decide (nextInsertion ≤ routeLength) &&
    segmentCount == nextInsertion + 1

/-- The insertions of segment 2 within the route length, when every band and program id is valid (R71). -/
def routeOf? (length : Nat) (ins : List (Nat × Nat)) : Option (List RouteStep) :=
  (ins.take length).mapM (fun p => if 1 ≤ p.2 ∧ p.2 ≤ 4095 then (bandOfCode p.1).map (fun bd => ⟨bd, p.2⟩) else none)

/-- The checks of a summary segment (R69, R193). -/
def summaryOk (segment insertionNo station : Nat) (adj : Int) : Bool :=
  insertionNo + 2 == segment && decide (1 ≤ station) && decide (station ≤ 62) && decide (-65535 ≤ adj) && decide (adj ≤ 65535)

/-- The open collection from a station (R71). -/
def Blocks.openCollection? (b : Blocks) (src : Nat) : Option LotRecord :=
  b.lots.find? (fun r => r.state == .inboundPending && r.peer == some src && decide (2 ≤ r.collected) &&
    (match r.segmentCount with | some n => decide (r.collected < n) | none => false))

/-- When every segment has been collected the record goes to INBOUND: arrival timeout, ACCEPT due,
ARRIVAL_EXPECTED (R73). -/
def Blocks.collectionDone (c : Ctx) (b : Blocks) (lot : Nat) : Blocks :=
  match b.lot? lot with
  | none => b
  | some r =>
    if r.segmentCount == some r.collected then
      let peer := r.peer.getD 0
      let b := b.modLot lot (fun r => { r with
        state := .inbound, collected := 0, segmentCount := none,
        deadline := some ⟨.arrivalTimeout, c.now + c.cfg.arrivalTimeout * 60000⟩ })
      (b.answerDue lot .accept peer).note (.arrivalExpected lot peer r.product (r.nextInsertion.getD 0) r.inQty)
    else b

/-- A DOSSIER segment heard (R71, R72). -/
def Blocks.collect (c : Ctx) (b : Blocks) (src : Nat) : DossierSegment → Blocks
  | .identity lot product family priority qty len next disposed count =>
    let b := match b.openCollection? src with
      | some r => if r.lot == lot then b else b.removeRecord c r.lot
      | none => b
    match b.lot? lot with
    | none => b
    | some r =>
      if r.state != .inboundPending then b
      else if r.peer != some src then b.removeRecord c lot
      else if r.collected != 0 then b
      else if identityOk product family priority qty len next count then
        b.modLot lot (fun r => { r with
          product := product, family := family, priority := priority, entryQty := qty,
          route := List.replicate len ⟨.cold, 0⟩, nextInsertion := some next, disposedHolds := disposed,
          collected := 1, segmentCount := some count })
      else b.removeRecord c lot
  | .route lot ins =>
    match b.lot? lot with
    | none => b
    | some r =>
      if r.state != .inboundPending || r.peer != some src then b
      else match (if r.collected == 1 then routeOf? r.route.length ins else none) with
        | some route => (b.modLot lot (fun r => { r with route := route, collected := 2 })).collectionDone c lot
        | none => b.removeRecord c lot
  | .summary seg no station declared adj good rejects voidFinal scrapped =>
    match b.openCollection? src with
    | none => b
    | some r =>
      if seg == r.collected + 1 && summaryOk seg no station adj then
        (b.modLot r.lot (fun r => { r with
          summaries := r.summaries ++ [⟨no, station, declared, adj, good, rejects, voidFinal, scrapped⟩],
          collected := r.collected + 1 })).collectionDone c r.lot
      else b.removeRecord c r.lot
  | .unnumbered _ => b

/-! ## Frames of a transfer heard -/

/-- The record is removed as on a TAKE from `src`: its offer is ended, LOT_TAKEN is queued (R77, R179). -/
def Blocks.takenAway (c : Ctx) (b : Blocks) (lot src : Nat) : Blocks :=
  ((b.endOffer lot).note (.lotTaken lot src)).removeRecord c lot

/-- The states in which a TAKE, or a SHIPPED, from `src` removes the record (R77, R179). -/
def LotRecord.takenBy (r : LotRecord) (src : Nat) : Bool :=
  (r.state == .outbound && r.peer == some src) || ((r.state == .awaiting || r.state == .offered) && r.recallMark == some src)

/-- An inbound record from `src` is removed with ARRIVAL_CANCELLED (R81, R82). -/
def Blocks.cancelArrival (c : Ctx) (b : Blocks) (lot : Nat) (reason : CancelReason) : Blocks :=
  (b.removeRecord c lot).note (.arrivalCancelled lot reason)

/-- A custody record of a lot another station claims: TAKE is due again when it was taken from that station, else
`other` (R82, R83, R175). -/
def Blocks.contested (b : Blocks) (r : LotRecord) (src : Nat) (other : Blocks → Blocks) : Blocks :=
  if r.takenFrom == some src then b.answerDue r.lot .take src else other b

/-- An OFFER heard, at the custody unit (R82). -/
def Blocks.custodyOffer (c : Ctx) (b : Blocks) (src lot : Nat) : Blocks :=
  match b.lot? lot with
  | none => b
  | some r =>
    if r.inCustody then b.contested r src (fun b => (b.answerDue lot .object src).raise c lot .ident)
    else if r.peer == some src then b.cancelArrival c lot .reoffered
    else b

/-- An OBJECT of reason DUPLICATE heard, at the custody unit (R83). -/
def Blocks.custodyObject (c : Ctx) (b : Blocks) (src lot : Nat) : Blocks :=
  match b.lot? lot with
  | none => b
  | some r => if r.inCustody then b.contested r src (fun b => b.raise c lot .ident) else b

/-! ## Arrival timeout and withdrawal -/

/-- The arrival timeout of an INBOUND record (R78). -/
def Blocks.arrivalExpired (b : Blocks) (r : LotRecord) : Blocks :=
  let b := (b.answerDue r.lot .decline (r.peer.getD 0)).dropAnswer r.lot .accept
  (b.modLot r.lot (fun r => { r with deadline := none })).note (.arrivalCancelled r.lot .timeout)

/-- Remove every INBOUND_PENDING record (R18, R85). -/
def Blocks.dropCollections (c : Ctx) (b : Blocks) : Blocks :=
  b.forLots ((b.lots.filter (fun r => r.state == .inboundPending)).map (·.lot)) (fun b lot => b.removeRecord c lot)

/-- OFFERED and AWARDED records return to AWAITING, award marks and bid records are discarded, the send list is
emptied (R66, R67, R85). -/
def Blocks.dropTransfers (b : Blocks) : Blocks :=
  { b with
    lots := b.lots.map (fun r =>
      match r.state with
      | .offered => { r with state := .awaiting, offer := none, peer := none, deadline := none }
      | .awarded => { r with state := .awaiting, awardDue := false, dossierSend := none, peer := none, deadline := none }
      | .queued => { r with awardDue := false }
      | _ => r)
    bids := []
    custody := { b.custody with sendList := [] } }

end Sys2Proof.Machine
end

