-- ==== Sys2Proof/Machine/Release.lean ====
section
/-! DEFINITION. The release unit (chapter 9): intent windows, objections, shipment and the released ring; and the
sweeps that follow every change: starting, offering, releasing, placing. -/

namespace Sys2Proof.Machine

/-! ## Intent windows (R172 to R174) -/

/-- Release one lot: the INTENT is placed and the record enters RELEASING; refused, it has a release retry time
(R173). -/
def Blocks.releaseLot (c : Ctx) (b : Blocks) (lot : Nat) : Blocks :=
  match b.lot? lot with
  | none => b
  | some r =>
    if b.releasable c r then
      match b.placeLow c ⟨.release, lot, .intent lot r.family⟩ with
      | (b, true) => b.modLot lot (fun r => { r with
          state := .releasing, releaseRetry := none, intent := some .pending,
          deadline := some ⟨.releaseWindow, c.now + c.cfg.releaseWindow * 1000⟩ })
      | (b, false) => b.modLot lot (fun r => { r with releaseRetry := some (c.now + Config.retryMs) })
    else b

/-- Release every releasable lot in ascending lot id (R172). -/
def Blocks.releaseLots (c : Ctx) (b : Blocks) : Blocks :=
  b.forLots ((b.lots.filter (b.releasable c)).map (·.lot)) (Blocks.releaseLot c)

/-! ## After every change -/

/-- What follows a change of the blocks: the chain end that waits is watched (R103), due frames are placed, the next lot starts, offerable lots are offered,
releasable lots are released (R8, R29, R43, R70, R172). -/
def Blocks.settle (c : Ctx) (b : Blocks) : Blocks :=
  let b := (b.watchEnd.startDossier).pump c
  let b := b.startChoice c
  let b := b.offerLots c
  let b := b.releaseLots c
  b.pump c

/-! ## Objections (R175, R176) -/

/-- An objection becomes due, or OBJECTION_LOST is queued when 16 are (R175). -/
def Blocks.object (b : Blocks) (lot : Nat) (reason : ObjectReason) (station : Nat) : Blocks :=
  if b.release.objections.any (fun o => o.lot == lot && o.station == station) then b
  else if b.release.objections.length < Config.objectionCapacity then
    { b with release := { b.release with objections := b.release.objections ++ [⟨lot, reason, station⟩] } }
  else b.note (.objectionLost lot reason station)

/-- An INTENT heard (R175). -/
def Blocks.judgeIntent (c : Ctx) (b : Blocks) (src lot family : Nat) : Blocks :=
  match (b.lot? lot).filter (·.inCustody) with
  | some r => (b.object lot .duplicate src).contested r src (fun b => b.raise c lot .ident)
  | none => if b.family.holdsFamily family then b.object lot .family src else b

/-- An OBJECT heard, at the release unit (R176). -/
def Blocks.releaseObject (c : Ctx) (b : Blocks) (src lot : Nat) (reason : ObjectReason) (objected : Nat) : Blocks :=
  if objected != c.own then b
  else match (b.lot? lot).filter (fun r => r.state == .releasing) with
    | some _ => b.abandonWindow lot (.objection src reason) (some (c.now + c.cfg.releaseWindow * 1000))
    | none => if b.release.ring.any (fun e => e.lot == lot) then b.note (.lateObjection lot src reason) else b

/-! ## Shipment (R177, R178) -/

/-- Change the ring entry at an index. -/
def Blocks.modRing (b : Blocks) (i : Nat) (f : RingEntry → RingEntry) : Blocks :=
  { b with release := { b.release with ring := b.release.ring.modify i f } }

/-- Put the due SHIPPED of the ring entry at index `i` into a slot; refused, it is placed again 1 s later (R178). -/
def Blocks.placeShipped (c : Ctx) (b : Blocks) (i : Nat) : Blocks :=
  match b.release.ring[i]? with
  | none => b
  | some e =>
    match b.placeLow c ⟨.release, e.lot, .shipped e.lot e.family e.good⟩ with
    | (b, true) => b.modRing i (fun y => { y with retry := none, placement := some b.link.placements })
    | (b, false) => b.modRing i (fun y => { y with retry := some (c.now + Config.retryMs), placement := none })

/-- Place every due SHIPPED that is in no slot (R178, R181); at a warm reset also one that waits for its retry, at once (DESIGN
CHOICE, log 78: R181 speaks of those the reset empties from the slots). They are placed in the order of the ring, oldest entry first
(DESIGN CHOICE, log 91: R178 and R181 order them not). -/
def Blocks.placeAllShipped (c : Ctx) (b : Blocks) : Blocks :=
  (b.release.ring.zipIdx.filter (fun p => p.1.due && p.1.placement.isNone)).foldl (fun b p => b.placeShipped c p.2) b

/-- Write an entry into the released ring; with 8 entries the oldest is overwritten and its due SHIPPED cancelled (R178). One that
is ON_WIRE takes the cancel mark and is not tried again when its attempt fails (DESIGN CHOICE, log 99: R178 speaks of a pending one
only). -/
def Blocks.ringPush (b : Blocks) (e : RingEntry) : Blocks :=
  if b.release.ring.length < Config.ringCapacity then { b with release := { b.release with ring := b.release.ring ++ [e] } }
  else match b.release.ring with
    | old :: rest =>
      let b := { b with release := { b.release with ring := rest ++ [e] } }
      if old.due then b.cancelSlots old.isOf else b
    | [] => { b with release := { b.release with ring := [e] } }

/-- Ship a lot (R177). -/
def Blocks.ship (c : Ctx) (b : Blocks) (r : LotRecord) : Blocks :=
  let b := b.ringPush ⟨r.lot, r.family, r.lastGood, c.now, true, none, none⟩
  let b := b.placeShipped c (b.release.ring.length - 1)
  (b.note (.shipped r.lot r.family r.lastGood r.entryQty r.route.length)).removeRecord c r.lot

/-- A SHIPPED heard (R179). -/
def Blocks.judgeShipped (c : Ctx) (b : Blocks) (src lot : Nat) : Blocks :=
  match b.lot? lot with
  | none => b
  | some r =>
    if r.takenBy src then b.takenAway c lot src
    else if r.inCustody then (b.raise c lot .ident).note (.shippedElsewhere lot src)
    else b

/-- Every open intent window is abandoned by the withdrawal, and the objections are discarded (R181). -/
def Blocks.abandonAll (b : Blocks) : Blocks :=
  let b := b.forLots ((b.lots.filter (fun r => r.state == .releasing)).map (·.lot)) (fun b lot => b.abandonWindow lot .withdrawn none)
  { b with release := { b.release with objections := [] } }

end Sys2Proof.Machine
end

