-- ==== Sys2Proof/Machine/Touchdown.lean ====
section
/-! DEFINITION. The touchdown controller (chapter 6) and the evaluation after a result (7.1): the touchdown cycle,
voids, scraps, the close of an insertion, and the five checks. -/

namespace Sys2Proof.Machine

/-! ## SORT (R124, 11.2) -/

/-- Send a SORT naming a cup for each site. -/
def Blocks.sendSort (b : Blocks) (cup : Nat → Cup) : Blocks := b.toHandler (.sort (allSites.map cup))

/-- Change the touchdown controller. -/
def Blocks.modTd (b : Blocks) (f : TdUnit → TdUnit) : Blocks := { b with td := f b.td }

/-- The sites of a touchdown sorted VOID at once. -/
def Touchdown.voidSiteNumbers (t : Touchdown) : List Nat := t.voidSites.map (·.1)

/-- The cup of a site: `active` for an active site, VOID for a void site, none for a site with no unit. -/
def Touchdown.cup (t : Touchdown) (active : Nat → Cup) (s : Nat) : Cup :=
  if t.active.contains s then active s else if t.voidSiteNumbers.contains s then .void else .none

/-- SORT is sent and the stage becomes SORTING; the deadline, the sequence and the busy time end (R120, R124). -/
def Blocks.sortTouchdown (b : Blocks) (t : Touchdown) (active : Nat → Cup) : Blocks :=
  (b.sendSort (t.cup active)).modTd (fun u => { u with
    touchdown := some { t with stage := .sorting, sequence := none, deadline := none, busy := 0 } })

/-! ## The end of a scrapped lot (R127, R151) -/

/-- A touchdown in SORTING whose lot is removed goes on without a lot (R127, R151); its LOT_EMPTY mark stays, and is taken
at its SORTED, which ends it in the same way (R125; log 18). -/
def Touchdown.orphaned (t : Touchdown) : Touchdown := { t with kind := .orphan }

/-- A lot marked ending is removed, after LOT_END, once none of its units is in in_sockets (R127, R151). -/
def Blocks.freeEnding (c : Ctx) (b : Blocks) : Blocks :=
  match b.testLot? with
  | some r =>
    if r.ending && ((r.account.map (·.inSockets)).getD 0) == 0 then
      ((b.toHandler .lotEnd).modTd (fun u => { u with touchdown := u.touchdown.map Touchdown.orphaned })).removeRecord c r.lot
    else b
  | none => b

/-! ## Voiding a touchdown (R126, R129, R135) -/

/-- Units leave in_sockets for void_open. -/
def Account.voidToOpen (a : Account) (n : Nat) : Account := { a with inSockets := a.inSockets - n, voidOpen := a.voidOpen + n }

/-- Units leave in_sockets for void_final. -/
def Account.voidToFinal (a : Account) (n : Nat) : Account := { a with inSockets := a.inSockets - n, voidFinal := a.voidFinal + n }

/-- Units leave in_sockets for scrapped. -/
def Account.scrapUnits (a : Account) (n : Nat) : Account := { a with inSockets := a.inSockets - n, scrapped := a.scrapped + n }

/-- Voided units go to void_open in MAIN and to void_final in VOID_PASS (R124, R126). -/
def Account.voidUnits (a : Account) (n : Nat) : Account :=
  match a.phase with
  | .main => a.voidToOpen n
  | .voidPass => a.voidToFinal n

/-- The touchdown's active units are moved by `move` in the account of lot `lot`, and all are sorted VOID. -/
def Blocks.voidTouchdown (b : Blocks) (lot : Nat) (t : Touchdown) (move : Account → Nat → Account) : Blocks :=
  (b.modLot lot (fun r => r.modAccount (fun a => move a t.active.length))).sortTouchdown t (fun _ => .void)

/-- Abort a touchdown in TESTING, or void a parked one, for the lot in test (R126). -/
def Blocks.abortTouchdown (c : Ctx) (b : Blocks) (t : Touchdown) : Blocks :=
  match b.testLot? with
  | some r => (b.voidTouchdown r.lot t Account.voidUnits).freeEnding c
  | none => b.sortTouchdown t (fun _ => .void)

/-- Abort the touchdown when it is in TESTING. -/
def Blocks.abortTesting (c : Ctx) (b : Blocks) : Blocks :=
  match b.td.touchdown with
  | some t => if t.stage == .testing then b.abortTouchdown c t else b
  | none => b

/-! ## TD_READY (R121 to R123) -/

/-- The sites of an occupied mask, ascending. -/
def occupiedSites (mask : BitVec 8) : List Nat := allSites.filter (fun s => mask.getLsbD (s - 1))

/-- Units sorted without a lot: all VOID, ORPHAN_UNITS (R121). -/
def Blocks.orphanTouchdown (b : Blocks) (sites : List Nat) : Blocks :=
  (b.sortTouchdown ⟨.sorting, .orphan, [], sites.map (fun s => (s, .uncounted)), none, none, 0, false⟩ (fun _ => .void)).note
    (.orphanUnits sites)

/-- A counted touchdown goes on: sorted at once with no active site, parked with the latch set, else started
(R121, R123). -/
def Blocks.proceed (c : Ctx) (b : Blocks) (r : LotRecord) (t : Touchdown) : Blocks :=
  if t.active.isEmpty then b.sortTouchdown t (fun _ => .void)
  else if b.td.latch then b.modTd (fun u => { u with touchdown := some t })
  else b.startTouchdown c r t

/-- The touchdown record a TD_READY makes. -/
def readyRecord (active : List Nat) (voids : List (Nat × VoidCount)) : Touchdown :=
  ⟨.parked, .counted, active, voids, none, none, 0, false⟩

/-- An ORPHAN_UNITS notice names the sites no count takes, when there are any (R121, R122). -/
def Blocks.noteOrphans (b : Blocks) (sites : List Nat) : Blocks := if sites.isEmpty then b else b.note (.orphanUnits sites)

/-- The excess check of the main pass (R121). -/
def Blocks.excessCheck (c : Ctx) (b : Blocks) (lot : Nat) : Blocks :=
  match (b.lot? lot).bind (·.account) with
  | some a =>
    if a.expected < (a.placedMain : Int) && !a.excess then
      let b := b.modLot lot (fun r => r.modAccount (fun a => { a with excess := true }))
      b.raiseRecon c lot a
    else b
  | none => b

/-- TD_READY in the main pass (R121). -/
def Blocks.readyMain (c : Ctx) (b : Blocks) (r : LotRecord) (sites : List Nat) : Blocks :=
  let placed := (r.account.map (·.placedMain)).getD 0
  let counted := sites.take (65535 - placed)
  let rest := sites.drop (65535 - placed)
  let on := counted.filter (fun s => b.td.site s == .enabled)
  let off := counted.filter (fun s => b.td.site s != .enabled)
  let b := b.modLot r.lot (fun r => r.modAccount (fun a => { a with
    placedMain := a.placedMain + counted.length, inSockets := a.inSockets + on.length, voidOpen := a.voidOpen + off.length }))
  let b := b.noteOrphans rest
  let b := b.excessCheck c r.lot
  b.proceed c r (readyRecord on (off.map (fun s => (s, .voidOpen)) ++ rest.map (fun s => (s, .uncounted))))

/-- TD_READY in the void pass (R122). -/
def Blocks.readyVoidPass (c : Ctx) (b : Blocks) (r : LotRecord) (sites : List Nat) : Blocks :=
  let waiting := (r.account.map (·.voidOpen)).getD 0
  let drawn := sites.take waiting
  let rest := sites.drop waiting
  let on := drawn.filter (fun s => b.td.site s == .enabled)
  let off := drawn.filter (fun s => b.td.site s != .enabled)
  let b := b.modLot r.lot (fun r => r.modAccount (fun a => { a with
    voidOpen := a.voidOpen - drawn.length, inSockets := a.inSockets + on.length, voidFinal := a.voidFinal + off.length }))
  let b := b.noteOrphans rest
  b.proceed c r (readyRecord on (off.map (fun s => (s, .voidFinal)) ++ rest.map (fun s => (s, .uncounted))))

/-- The void pass of the lot runs (R130). -/
def LotRecord.voidPassRuns (r : LotRecord) : Bool :=
  r.state == .closing && (match r.account with | some a => a.voidPass == .running | none => false)

/-- TD_READY (R113, R121, R122). -/
def Blocks.ready (c : Ctx) (b : Blocks) (sites : List Nat) : Blocks :=
  if b.td.touchdown.isSome then b.note (.portError .handler .tdReady)
  else match b.testLot? with
    | none => b.orphanTouchdown sites
    | some r =>
      if r.state == .inTest then b.readyMain c r sites
      else if r.voidPassRuns then b.readyVoidPass c r sites
      else b.orphanTouchdown sites

/-! ## The evaluation after a result (R136 to R141) -/

/-- A per-site count of an account's list, sites 1 to 8. -/
def siteCount (l : List Nat) (s : Nat) : Nat := if s == 0 then 0 else l.getD (s - 1) 0

/-- A site is made HELD by the evaluator, with its SITE_HELD notice (R114, R137, R138). -/
def Blocks.holdSite (b : Blocks) (lot s : Nat) (reason : SiteReason) (values : List Nat) : Blocks :=
  (b.modTd (fun u => if u.site s == .enabled then u.setSite s (.held reason) else u)).note (.siteHeld (some lot) s reason values)

/-- The fail run check (R137). -/
def Blocks.checkRuns (b : Blocks) (lot : Nat) (rec_ : Recipe) (a : Account) : Blocks :=
  if rec_.runLimit == 0 then b
  else (b.td.enabledSites.filter (fun s => decide (rec_.runLimit ≤ siteCount a.failRun s))).foldl
    (fun b s => b.holdSite lot s .run [siteCount a.failRun s]) b

/-- Yield in permille, rounded down. -/
def permille (good tested : Nat) : Nat := 1000 * good / tested

/-- The yields of a site and of the others, when the site is eligible for the spread check (R138). -/
def spreadOf? (enabled : List Nat) (rec_ : Recipe) (a : Account) (s : Nat) : Option (Nat × Nat) :=
  let others := enabled.filter (fun x => x != s)
  let t := siteCount a.siteTested s
  let rest := (others.map (siteCount a.siteTested)).sum
  if rec_.siteMinSample ≤ t ∧ rec_.siteMinSample ≤ rest ∧ 0 < t ∧ 0 < rest then
    some (permille (siteCount a.siteGood s) t, permille ((others.map (siteCount a.siteGood)).sum) rest)
  else none

/-- The candidates of the spread check, each with its two yields (R138). -/
def spreadCandidates (enabled : List Nat) (rec_ : Recipe) (a : Account) : List (Nat × Nat × Nat) :=
  enabled.filterMap (fun s => (spreadOf? enabled rec_ a s).bind (fun y =>
    if y.1 + rec_.spreadLimit < y.2 then some (s, y.1, y.2) else none))

/-- Of two candidates, the one with the greater difference, the earlier one when they are equal. -/
def widerSpread (x y : Nat × Nat × Nat) : Nat × Nat × Nat := if x.2.2 - x.2.1 < y.2.2 - y.2.1 then y else x

/-- The spread check (R138). -/
def Blocks.checkSpread (b : Blocks) (lot : Nat) (rec_ : Recipe) (a : Account) : Blocks :=
  if rec_.spreadLimit == 0 then b
  else match spreadCandidates b.td.enabledSites rec_ a with
    | [] => b
    | x :: rest =>
      let w := rest.foldl widerSpread x
      b.holdSite lot w.1 .spread [w.2.1, w.2.2]

/-- The yield check (R139). -/
def Blocks.checkYield (c : Ctx) (b : Blocks) (r : LotRecord) (rec_ : Recipe) (a : Account) : Blocks :=
  let good := a.good rec_.goodBins
  if rec_.yieldLimit != 0 && !r.suppressYield && decide (rec_.minSample ≤ a.tested) && decide (0 < a.tested) &&
      decide (good * 1000 < rec_.yieldLimit * a.tested) then
    b.raiseFinding c r.lot .yield ((good : Int), (a.tested : Int)) []
  else b

/-- One bin limit (R140). A bin that is added to an open BIN hold stands after those it names already (DESIGN CHOICE, log 72: R13 has a
set). -/
def Blocks.checkBin (c : Ctx) (lot : Nat) (a : Account) (b : Blocks) (l : BinLimit) : Blocks :=
  match b.lot? lot with
  | none => b
  | some r =>
    if !r.suppressBins.contains l.bin && decide (l.permille * a.tested < a.bin l.bin * 1000) then
      match r.hold? .bin with
      | none => b.raiseFinding c lot .bin ((l.bin : Int), (a.bin l.bin : Int)) [l.bin]
      | some h =>
        if h.bins.contains l.bin then b
        else (b.modLot lot (fun r => { r with holds := r.holds.map (fun h =>
          if h.kind == .bin then { h with bins := h.bins ++ [l.bin] } else h) })).note (.holdBinAdded lot l.bin (a.bin l.bin))
    else b

/-- The bin limit check (R140). -/
def Blocks.checkBins (c : Ctx) (b : Blocks) (lot : Nat) (rec_ : Recipe) (a : Account) : Blocks :=
  if rec_.minSample ≤ a.tested ∧ 0 < a.tested then rec_.binLimits.foldl (Blocks.checkBin c lot a) b else b

/-- The sites check (R141). -/
def Blocks.checkSites (c : Ctx) (b : Blocks) (lot : Nat) : Blocks :=
  if b.td.enabledCount < c.cfg.minSites then b.raiseSites c lot else b

/-- One evaluation: fail runs, spread, yield, bin limits, sites (R136). -/
def Blocks.evaluate (c : Ctx) (b : Blocks) (lot : Nat) : Blocks :=
  match b.lot? lot with
  | none => b
  | some r => match r.account with
    | none => b
    | some a =>
      let rec_ := c.recipe r.product
      let b := b.checkRuns lot rec_ a
      let b := b.checkSpread lot rec_ a
      let b := b.checkYield c r rec_ a
      let b := b.checkBins c lot rec_ a
      b.checkSites c lot

/-! ## TD_RESULT (R124) -/

/-- The unit of one active site leaves in_sockets for its bin or a void count (R124). -/
def Account.takeBin (goodBins : List Nat) (a : Account) (s bin : Nat) : Account :=
  if 1 ≤ bin ∧ bin ≤ 15 then
    let good := goodBins.contains bin
    { a with
      inSockets := a.inSockets - 1
      bins := a.bins.set (bin - 1) (a.bin bin + 1)
      siteTested := a.siteTested.set (s - 1) (siteCount a.siteTested s + 1)
      siteGood := if good then a.siteGood.set (s - 1) (siteCount a.siteGood s + 1) else a.siteGood
      failRun := a.failRun.set (s - 1) (if good then 0 else min 255 (siteCount a.failRun s + 1)) }
  else a.voidUnits 1

/-- The units of all active sites. -/
def Account.takeResult (goodBins bins active : List Nat) (a : Account) : Account :=
  active.foldl (fun a s => a.takeBin goodBins s (siteCount bins s)) a

/-- One busy time joins the timer ring, unless it is 0; the ring keeps the newest 16 (R128). -/
def TdUnit.sample (t : TdUnit) (busy : Nat) : TdUnit :=
  if busy == 0 then t
  else
    let l := t.timerRing ++ [min 65535 busy]
    { t with timerRing := l.drop (l.length - Config.timerCapacity) }

/-- The cup a bin sends a unit to (R124). -/
def binCup (bin : Nat) : Cup := if 1 ≤ bin ∧ bin ≤ 15 then .bin bin else .void

/-- TD_RESULT (R113, R124, R127, R136). -/
def Blocks.result (c : Ctx) (b : Blocks) (sequence : Nat) (bins : List Nat) : Blocks :=
  match b.td.touchdown with
  | none => b
  | some t =>
    if t.stage == .testing && t.sequence == some sequence then
      let b := b.modTd (fun u => u.sample t.busy)
      match b.testLot? with
      | none => b.sortTouchdown t (fun s => binCup (siteCount bins s))
      | some r =>
        let b := b.modLot r.lot (fun r => r.modAccount (Account.takeResult (c.recipe r.product).goodBins bins t.active))
        let b := b.sortTouchdown t (fun s => binCup (siteCount bins s))
        if r.ending then b.freeEnding c else b.evaluate c r.lot
    else b

/-! ## Closing the insertion (R130 to R132) -/

/-- The summary of an account (R132). -/
def summaryOf (own insertionNo : Nat) (goodBins : List Nat) (a : Account) : Summary :=
  ⟨insertionNo, own, a.declared, a.adj, a.good goodBins, a.tested - a.good goodBins, a.voidFinal, a.scrapped⟩

/-- The insertion is closed: the summary is written, LOT_END is sent, and the lot leaves CLOSING (R132). -/
def Blocks.closeInsertion (c : Ctx) (b : Blocks) (lot : Nat) : Blocks :=
  match b.lot? lot with
  | none => b
  | some r => match r.account with
    | none => b
    | some a =>
      let n := r.insertionNo
      let m := summaryOf c.own n (c.recipe r.product).goodBins a
      let last := decide (r.route.length ≤ n)
      let b := b.modLot lot (fun r => { r with
        summaries := r.summaries ++ [m], nextInsertion := if last then none else some (n + 1), account := none,
        state := if last then .finished else .awaiting })
      let b := (b.toHandler .lotEnd).note (.insertionClosed lot n m)
      if m.good == 0 then (b.note (.emptyLot lot)).removeRecord c lot else b

/-- Reconciliation (R131). -/
def Blocks.reconcile (c : Ctx) (b : Blocks) (lot : Nat) : Blocks :=
  match (b.lot? lot).bind (·.account) with
  | none => b
  | some a =>
    let b := if (a.placedMain : Int) < a.expected || a.excess then b.raiseRecon c lot a else b
    match b.lot? lot with
    | some r => if r.hasHold .recon then b else b.closeInsertion c lot
    | none => b

/-- LOT_EMPTY acted on (R130). -/
def Blocks.lotEmptyTaken (c : Ctx) (b : Blocks) : Blocks :=
  match b.testLot? with
  | none => b
  | some r => match r.account with
    | none => b
    | some a =>
      if r.state == .inTest then
        if 0 < a.voidOpen then
          (b.modLot r.lot (fun r => { r.modAccount (fun a => { a with phase := .voidPass, voidPass := .running }) with
            state := .closing })).note (.voidReload r.lot a.voidOpen)
        else (b.modLot r.lot (fun r => { r with state := .closing })).reconcile c r.lot
      else if r.voidPassRuns then
        (b.modLot r.lot (fun r => r.modAccount (fun a => { a with
          voidPass := .ended, voidFinal := a.voidFinal + a.voidOpen, voidOpen := 0 }))).reconcile c r.lot
      else b

/-- LOT_EMPTY: ignored with no lot it could concern, marked while a COUNTED touchdown is in flight, else acted on
(R113, R130). -/
def Blocks.lotEmpty (c : Ctx) (b : Blocks) : Blocks :=
  match b.testLot? with
  | none => b
  | some r =>
    if r.state == .closing && !r.voidPassRuns then b
    else match b.td.touchdown with
      | some t =>
        if t.kind == .counted then b.modTd (fun u => { u with touchdown := some { t with lotEmptyMark := true } })
        else b.lotEmptyTaken c
      | none => b.lotEmptyTaken c

/-! ## SORTED (R125) -/

/-- The touchdown ends: a marked LOT_EMPTY is taken, then STOPPED is queued when the stop mark is set (R125). -/
def Blocks.endTouchdown (c : Ctx) (b : Blocks) (t : Touchdown) : Blocks :=
  let b := b.modTd (fun u => { u with touchdown := none })
  let b := if t.lotEmptyMark then b.lotEmptyTaken c else b
  if b.td.stopMark then (b.modTd (fun u => { u with stopMark := false })).note .stopped else b

/-- SORTED (R113, R125). -/
def Blocks.sortedTaken (c : Ctx) (b : Blocks) : Blocks :=
  match b.td.touchdown with
  | some t => if t.stage == .sorting then b.endTouchdown c t else b
  | none => b

/-! ## Kit and temperature in test (R129) -/

/-- A change of the kit taken, at the touchdown controller (R129). -/
def Blocks.kitInTest (c : Ctx) (b : Blocks) (old new : Nat) : Blocks :=
  match b.testLot? with
  | some r =>
    if r.state == .inTest || r.voidPassRuns then (b.raise c r.lot .setup).note (.kitChanged old new) else b
  | none => b

/-- TEMP_LOST, at the touchdown controller (R129). -/
def Blocks.tempLostInTest (c : Ctx) (b : Blocks) : Blocks :=
  match b.testLot? with
  | some r =>
    if r.state == .inTest then (b.abortTesting c).raise c r.lot .thermal
    else if r.voidPassRuns then (b.abortTesting c).raise c r.lot .setup
    else b
  | none => b

end Sys2Proof.Machine
end

