-- ==== Sys2Proof/Machine/Dispositions.lean ====
section
/-! DEFINITION. Dispositions of holds, local and remote (7.3, 7.4): the checks, RESUME, ACCEPT_COUNT and SCRAP. -/

namespace Sys2Proof.Machine

/-! ## Codes (11.1) -/

/-- The hold kind of a code. -/
def holdKindOfCode : Nat → Option HoldKind
  | 1 => some .yield
  | 2 => some .bin
  | 3 => some .sites
  | 4 => some .recon
  | 5 => some .setup
  | 6 => some .thermal
  | 7 => some .ident
  | 8 => some .restart
  | 9 => some .family
  | 10 => some .operator
  | _ => none

/-- The code of a hold kind. -/
def holdKindCode : HoldKind → Nat
  | .yield => 1
  | .bin => 2
  | .sites => 3
  | .recon => 4
  | .setup => 5
  | .thermal => 6
  | .ident => 7
  | .restart => 8
  | .family => 9
  | .operator => 10

/-- The disposition of a code. -/
def dispositionOfCode : Nat → Option Disposition
  | 1 => some .resume
  | 2 => some .acceptCount
  | 3 => some .scrap
  | _ => none

/-- The code of a disposition. -/
def dispositionCode : Disposition → Nat
  | .resume => 1
  | .acceptCount => 2
  | .scrap => 3

/-- The result code of a reply. -/
def replyCodeNumber : ReplyCode → Nat
  | .ok => 0
  | .busy => 1
  | .full => 2
  | .duplicate => 3
  | .unknownLot => 4
  | .unknownProduct => 5
  | .badValue => 6
  | .wrongState => 7
  | .moving => 8
  | .notOpen => 9
  | .notDisposable => 10
  | .stillShort => 11
  | .notActive => 12
  | .notStale => 13
  | .slotNotEmpty => 14
  | .linkDown => 15
  | .configFault => 16

/-- The reply code of a result code. -/
def replyCodeOf : Nat → Option ReplyCode
  | 0 => some .ok
  | 1 => some .busy
  | 2 => some .full
  | 3 => some .duplicate
  | 4 => some .unknownLot
  | 5 => some .unknownProduct
  | 6 => some .badValue
  | 7 => some .wrongState
  | 8 => some .moving
  | 9 => some .notOpen
  | 10 => some .notDisposable
  | 11 => some .stillShort
  | 12 => some .notActive
  | 13 => some .notStale
  | 14 => some .slotNotEmpty
  | 15 => some .linkDown
  | 16 => some .configFault
  | _ => none

/-! ## The checks (R145) -/

/-- The dispositions a kind admits (7.3). -/
def admits : HoldKind → Disposition → Bool
  | .family, _ => false
  | .recon, .acceptCount => true
  | .recon, .resume => false
  | _, .scrap => true
  | _, .resume => true
  | _, .acceptCount => false

/-- The first refusal of a disposition that applies, if one does (R145). -/
def Blocks.refusal? (c : Ctx) (b : Blocks) (r : LotRecord) (k : HoldKind) (d : Disposition) : Option ReplyCode :=
  if r.ending then some .wrongState
  else if !r.hasHold k then some .notOpen
  else if k == .family then some .notDisposable
  else if !admits k d then some .badValue
  else if d == .scrap && (r.state == .awarded || r.state == .outbound) then some .moving
  else if k == .sites && d == .resume && decide (b.td.enabledCount < c.cfg.minSites) then some .stillShort
  else none

/-! ## RESUME and ACCEPT_COUNT (R146 to R149) -/

/-- A hold leaves the list of a record, and the disposed hold count rises (R13, R146). -/
def LotRecord.disposeHold (r : LotRecord) (k : HoldKind) : LotRecord :=
  { r with holds := r.holds.filter (fun h => h.kind != k), disposedHolds := min 255 (r.disposedHolds + 1) }

/-- RESUME of a THERMAL hold of a lot in IN_TEST: a parked touchdown is voided into void_open, the lot goes to SETUP
with its account kept, and the walk begins (R96, R129, R147). -/
def Blocks.resumeThermal (c : Ctx) (b : Blocks) (lot : Nat) : Blocks :=
  let b : Blocks := match b.td.touchdown with
    | some t => if t.stage == .parked then b.voidTouchdown lot t Account.voidToOpen else b
    | none => b
  (b.modLot lot (fun r => { r with state := .setup })).startWalk c lot

/-- The own effects of RESUME by kind (R147). -/
def Blocks.resumeEffects (c : Ctx) (b : Blocks) (r : LotRecord) (k : HoldKind) : Blocks :=
  match k with
  | .yield => b.modLot r.lot (fun r => { r with suppressYield := true })
  | .bin =>
    let named := ((r.hold? .bin).map (·.bins)).getD []
    b.modLot r.lot (fun r => { r with suppressBins := r.suppressBins ++ named.filter (fun x => !r.suppressBins.contains x) })
  | .setup => if r.state == .setup && b.setup.engine == .faulted then b.startWalk c r.lot else b
  | .thermal => if r.state == .inTest then b.resumeThermal c r.lot else b
  | _ => b

/-- adj and the excess flag after ACCEPT_COUNT (R149). -/
def Account.acceptCount (a : Account) : Account := { a with adj := (a.placedMain : Int) - (a.declared : Int), excess := false }

/-- The lot waits in CLOSING for its reconciliation (R131, R149). -/
def LotRecord.awaitsReconciliation (r : LotRecord) : Bool :=
  r.state == .closing && (match r.account with | some a => a.voidPass != .running | none => false)

/-- RESUME or ACCEPT_COUNT of an open hold: it leaves the list, the kind's effects follow, a local entry no hold
calls for is removed, an unheld lot goes on, and an accepted count closes the insertion (R146 to R149). -/
def Blocks.applyResume (c : Ctx) (b : Blocks) (r : LotRecord) (k : HoldKind) (d : Disposition) : Blocks :=
  let b := b.modLot r.lot (fun r => r.disposeHold k)
  let b : Blocks := match d with
    | .acceptCount => b.modLot r.lot (fun r => r.modAccount Account.acceptCount)
    | _ => b.resumeEffects c r k
  let b : Blocks := match b.lot? r.lot with
    | some r' => if r.familyScope && !r'.familyScope then b.endLocalEntry c r.family r.lot else b
    | none => b
  let b := b.onUnheld c r.lot
  match d, b.lot? r.lot with
  | .acceptCount, some r' => if r'.awaitsReconciliation && !r'.hasHold .recon then b.closeInsertion c r.lot else b
  | _, _ => b

/-! ## SCRAP (R150, R151) -/

/-- The touchdown controller ends its part in a scrapped lot's touchdown: a parked one is scrapped at once (R127). -/
def Blocks.scrapTouchdown (b : Blocks) (lot : Nat) : Blocks :=
  match b.td.touchdown with
  | some t =>
    if t.stage == .parked then
      (b.modLot lot (fun r => r.modAccount (fun a => a.scrapUnits t.active.length))).sortTouchdown t (fun _ => .scrap)
    else b
  | none => b

/-- What SCRAP does in the lot's state before the removal (R150). -/
def Blocks.scrapState (c : Ctx) (b : Blocks) (r : LotRecord) : Blocks :=
  match r.state with
  | .offered => b.endOffer r.lot
  | .releasing => b.cancelFrames (Frame.isIntent r.lot)
  | .setup => b.dropWalk c
  | _ => b

/-- SCRAP of a lot: out of test it is removed at once, in test it is marked ending and removed when no unit of it
remains in in_sockets (R150, R151). The due answers of a lot in test are cancelled as the SCRAP is taken (DESIGN CHOICE, log 67:
R150 has them cancelled with the record, which R151 removes later). A touchdown still in SORTING of a lot that a RESUME of THERMAL
has brought back to SETUP stays COUNTED as the lot is scrapped there (DESIGN CHOICE, log 89: R120 names no kind for it). -/
def Blocks.scrap (c : Ctx) (b : Blocks) (r : LotRecord) (k : HoldKind) : Blocks :=
  if r.state == .inTest || r.state == .closing then
    let b := (b.modLot r.lot (fun r => { r with ending := true })).scrapTouchdown r.lot
    let b := b.endLocalEntry c r.family r.lot
    let b := { b with custody := { b.custody with answers := b.custody.answers.filter (fun a => a.lot != r.lot) } }
    let b := b.cancelFrames (fun f => f.lot == r.lot && f.owner == .custody)
    (b.note (.scrapped r.lot k r.nextInsertion)).freeEnding c
  else ((b.scrapState c r).removeRecord c r.lot).note (.scrapped r.lot k r.nextInsertion)

/-! ## One disposition (R145, R153) -/

/-- An accepted disposition is applied and HOLD_DISPOSED is queued, after the notices of its effects (R145; DEDUCED, log 82). -/
def Blocks.applyDisposition (c : Ctx) (b : Blocks) (r : LotRecord) (k : HoldKind) (d : Disposition) (by_ : Requester) : Blocks :=
  let b : Blocks := match d with
    | .scrap => b.scrap c r k
    | _ => b.applyResume c r k d
  b.note (.holdDisposed r.lot k (some d) by_)

/-- A disposition asked for on a custody record of this station: its result and its effects (R145, R153). -/
def Blocks.dispose (c : Ctx) (b : Blocks) (r : LotRecord) (k : HoldKind) (d : Disposition) (by_ : Requester) : Blocks × ReplyCode :=
  match b.refusal? c r k d with
  | some code => (b, code)
  | none => (b.applyDisposition c r k d by_, .ok)

/-- The reply of a result code (R185). -/
def replyOf : ReplyCode → Reply
  | .ok => .ok
  | code => .no code

/-- A remote request: refused while one is pending, while WITHDRAWN, or for want of a slot; else the DISPOSE is
placed and the pending remote disposition recorded (R152). -/
def Blocks.disposeRemote (c : Ctx) (b : Blocks) (lot : Nat) (k : HoldKind) (d : Disposition) : Blocks × ReplyCode :=
  if b.remote.isSome then (b, .busy)
  else if b.link.state == .withdrawn then (b, .linkDown)
  else match b.placeLow c ⟨.evaluator, lot, .dispose lot (holdKindCode k) (dispositionCode d) c.own⟩ with
    | (b, true) =>
      ({ b with remote := some ⟨lot, k, d, c.now + c.cfg.remoteTimeout * 1000, b.link.placements⟩ }, .ok)
    | (b, false) => (b, .busy)

/-- A DISPOSE frame heard: applied to a custody record as a request from its sender, and answered with DISPOSED
(R153). -/
def Blocks.disposeHeard (c : Ctx) (b : Blocks) (src lot : Nat) (k : HoldKind) (d : Disposition) : Blocks :=
  match (b.lot? lot).filter (·.inCustody) with
  | some r =>
    let x := b.dispose c r k d (.station src)
    (x.1.placeLow c ⟨.evaluator, lot, .disposed lot (holdKindCode k) (replyCodeNumber x.2) src⟩).1
  | none => b

/-- A DISPOSED frame heard: one that matches the pending request ends it (R154). -/
def Blocks.disposedHeard (c : Ctx) (b : Blocks) (lot : Nat) (k : HoldKind) (code : ReplyCode) (requester : Nat) : Blocks :=
  match b.remote with
  | some q =>
    if q.lot == lot && q.kind == k && requester == c.own then
      ({ b with remote := none }).note (.disposeResult lot k q.disposition (.code code))
    else b
  | none => b

end Sys2Proof.Machine
end

