-- ==== Sys2Proof/Machine/Link.lean ====
section
/-! DEFINITION. The link controller's counters and states (2.4), what the blocks do on a change of link state, and what
each owner does when its frame is told sent, cancelled or lost. -/

namespace Sys2Proof.Machine

/-- Change the link controller. -/
def Blocks.modLink (b : Blocks) (f : LinkCtl → LinkCtl) : Blocks := { b with link := f b.link }

/-! ## A block's rule, then what follows it -/

/-- A command taken by the blocks, and what follows every change (R8, R29, R43, R172). -/
def State.act (s : State) (rule : Ctx → Blocks → Blocks) : State := s.take (fun c b => (rule c b).settle c)

/-- A deadline passes: time runs to it, and its expiry is taken; with no such deadline nothing happens. -/
def State.expire (s : State) (deadline : Option Nat) (rule : Ctx → Blocks → Blocks) : State :=
  match deadline with
  | some t => if s.live then (s.elapseTo t).act rule else s
  | none => s

/-! ## Changes of link state (R35 to R38) -/

/-- On entry to QUIET every PENDING OFFER and BID leaves its slot, its owner told removed (R36). -/
def Blocks.enterQuiet (c : Ctx) (b : Blocks) : Blocks :=
  let gone := b.link.slots.filterMap (fun x => match x with
    | some e => if !e.onWire && e.frame.isOfferOrBid then some e else none
    | none => none)
  let b := b.modLink (fun l => { l with slots := l.slots.map (fun x => match x with
    | some e => if !e.onWire && e.frame.isOfferOrBid then none else some e
    | none => none) })
  gone.foldl (fun b e => b.toldUnsent c e) b

/-- The signal of an error the part finds: passive in QUIET, active in NORMAL and WARNED (R23, R36), in the state it is found in,
before it is counted (DEDUCED, log 61). -/
def LinkCtl.errorSignal (l : LinkCtl) : LineSignal := if l.state == .quiet then .errorPassive else .errorActive

/-- Drive a signal on the line. -/
def LinkCtl.drive (l : LinkCtl) (x : LineSignal) : LinkCtl := { l with signals := l.signals ++ [x] }

/-- No SHIPPED stands in a slot any more (R37, R41). -/
def Blocks.unplaceRing (b : Blocks) : Blocks :=
  { b with release := { b.release with ring := b.release.ring.map (fun y => { y with placement := none }) } }

/-- The slots are emptied, the request list cleared, the placement count and the accumulator restarted (R37, R38). -/
def LinkCtl.emptied (l : LinkCtl) : LinkCtl :=
  { l with slots := [none, none, none, none, none, none], requests := [], placements := 0, rejoinAcc := 0 }

/-- The family hold list at withdrawal, and at warm reset: window, due ROLLCALL and cursor end (R169, R170). -/
def FamilyUnit.endRollcall (f : FamilyUnit) : FamilyUnit :=
  { f with window := none, rollcallDue := false, rollcallRetry := none, cursor := none }

/-- The blocks' responses to a withdrawal (R66, R85, R154, R169, R181). The RELEASE_ABANDONED notices come before DISPOSE_RESULT
NOT_SENT (DESIGN CHOICE, log 75: R37 gives no order). -/
def Blocks.withdraw (c : Ctx) (b : Blocks) : Blocks :=
  let disposeLost := b.link.slots.any (fun x => x.any b.remoteIsOf)
  let b := (b.modLink LinkCtl.emptied).unplaceRing
  let b := b.dropTransfers
  let b := b.dropCollections c
  let b := b.modFamily FamilyUnit.endRollcall
  let b := b.abandonAll
  if disposeLost then b.remoteNotSent else b

/-- The link state is derived anew from the counters; a change is noticed and announced (R34, R35). -/
def Blocks.deriveLink (c : Ctx) (b : Blocks) : Blocks :=
  let st := linkStateOf b.link.txErr b.link.rxErr
  if st == b.link.state then b
  else
    let b := (b.modLink (fun l => { l with state := st })).note (.linkState st b.link.txErr b.link.rxErr)
    match st with
    | .quiet => b.enterQuiet c
    | .withdrawn => b.withdraw c
    | _ => b

/-- The link is up: joined to the line and not WITHDRAWN (R19, R37). -/
def LinkCtl.up (l : LinkCtl) : Bool := l.joined && l.state != .withdrawn

/-- A frame received whole is acknowledged and lowers rx_err (R22, R34), before it is delivered (DESIGN CHOICE, log 74). -/
def Blocks.reception (c : Ctx) (b : Blocks) : Blocks :=
  (b.modLink (fun l => { l.drive .acknowledge with rxErr := l.rxErr - 1 })).deriveLink c

/-- What is driven on the line for a frame in which an error is found: its acknowledgement when it was free of error up to its
acknowledgement slot, then the signal of the error (R22, R23). The event does not say where in the frame the error lies, so
whether the acknowledgement comes first is a free value (log 63). -/
def LinkCtl.errorFrameSignals (l : LinkCtl) (now : Nat) : List LineSignal :=
  (if Config.ackedBeforeError now l.signals.length then [.acknowledge] else []) ++ [l.errorSignal]

/-- An error found in a frame being received is signalled and raises rx_err (R22, R23, R34). -/
def Blocks.receiveError (c : Ctx) (b : Blocks) : Blocks :=
  (b.modLink (fun l => { l with
    signals := l.signals ++ l.errorFrameSignals c.now, rxErr := min 255 (l.rxErr + 1) })).deriveLink c

/-- A discarded frame that carries the station's own number sets the station clash mark, with a notice (R32). -/
def Blocks.clashCheck (c : Ctx) (b : Blocks) (cls kind src : Nat) : Blocks :=
  if src == c.own && !b.link.clash then (b.modLink (fun l => { l with clash := true })).note (.stationClash cls kind) else b

/-! ## Rejoin (R38, R169) -/

/-- Every non-local entry becomes UNCONFIRMED, every local entry's HOLD is due, UNSETTLED is set (R169, R170). A local entry
keeps its raiser, also where a warm reset has sampled another station number, which its HOLDs then carry (DESIGN CHOICE,
log 56: R156 has this station's number as the raiser, R170 keeps the entries). -/
def FamilyUnit.unsettle (f : FamilyUnit) : FamilyUnit :=
  { f with
    entries := f.entries.map (fun e => if e.isLocal then { e with holdDue := true } else { e with state := .unconfirmed })
    unsettled := true }

/-- What the family hold list does at rejoin and at warm reset, once its roll call record is idle (R169, R170). -/
def Blocks.unsettleFamilies (c : Ctx) (b : Blocks) : Blocks :=
  (((b.modFamily FamilyUnit.unsettle).announceFlag c).pump c).startRollcall c

/-- The station rejoins (R38, R169, R181). -/
def Blocks.rejoin (c : Ctx) (b : Blocks) : Blocks :=
  let b := b.modLink (fun l => { l with txErr := 0, rxErr := 0, state := .normal, joined := false, rejoinAcc := 0 })
  let b := b.note (.linkState .normal 0 0)
  let b := b.unsettleFamilies c
  b.placeAllShipped c

/-- The link controller joins the line, and the ROLLCALL of the power-on is placed (R19, R40, R170). -/
def Blocks.joinLine (c : Ctx) (b : Blocks) : Blocks :=
  if b.link.state == .withdrawn then b
  else
    let b := b.modLink (fun l => { l with joined := true })
    if b.family.rollcallDue && b.family.rollcallRetry.isNone && !b.inSlot Frame.isRollcall then b.placeRollcall c else b

/-! ## Told sent (R25) -/

/-- The OFFER has been sent: the window runs in full from now (R45). -/
def Blocks.offerSent (c : Ctx) (b : Blocks) (lot : Nat) : Blocks :=
  b.modLot lot (fun r => match r.offer with
    | some o => if r.state == .offered then
        { r with offer := some { o with frame := .sent }, deadline := some ⟨.bidWindow, c.now + c.cfg.bidWindow * 1000⟩ } else r
    | none => r)

/-- The BID has been sent; an own bid is taken by the offerer (R57, R60). -/
def Blocks.bidSent (c : Ctx) (b : Blocks) (lot : Nat) : Blocks :=
  let b := { b with bids := b.bids.map (fun (r : BidRecord) => if r.lot == lot && r.sentAt.isNone then { r with sentAt := some c.now } else r) }
  b.modLot lot (fun r => match r.state, r.offer with
    | .offered, some o => match o.own with
      | some (_, cost) => { r with offer := some ({ o with own := some (.sent, cost) }.take cost c.own) }
      | none => r
    | _, _ => r)

/-- A custody answer has been sent: it is no longer due, and a DECLINE removes its record (R78, R84). -/
def Blocks.answerSent (c : Ctx) (b : Blocks) (f : Frame) : Blocks :=
  let due := b.custody.answers.any (fun a => a.frame == f)
  let b := { b with custody := { b.custody with answers := b.custody.answers.filter (fun a => a.frame != f) } }
  if due && f.answer? == some .decline then b.removeRecord c f.lot else b

/-- The owner is told sent (R25, R45, R57, R63, R70, R84, R159, R165, R166, R173, R175, R178). A BID, an AWARD and a segment
that were cancelled on the wire change nothing (R57; log 29); an OFFER and an INTENT are taken by the state their record now
has (R30, R45, R173), and a SHIPPED by the ring entry it was placed for (R178). -/
def Blocks.toldSent (c : Ctx) (b : Blocks) (e : SlotEntry) : Blocks :=
  let f := e.frame
  if f.owner == .custody && f.answer?.isSome then b.answerSent c f
  else match f.data with
    | .offer o => b.offerSent c o.lot
    | .bid lot _ _ => if e.cancelMark then b else b.bidSent c lot
    | .award lot _ => if e.cancelMark then b else b.awardSent lot
    | .dossier seg => if e.cancelMark then b else b.segmentSent f.lot seg.number
    | .hold family lot _ => (b.modFamily (fun u => { u with entries := u.entries.map (fun x =>
        if x.isLocal && x.family == family && x.lot == lot then { x with holdDue := false } else x) })).cursorSent family lot
    | .clear family lot _ => b.modFamily (fun u => { u with clearDue := u.clearDue.filter (fun k => k != (family, lot)) })
    | .object lot _ st => { b with release := { b.release with
        objections := b.release.objections.filter (fun o => !(o.lot == lot && o.station == st)) } }
    | .rollcall => if b.family.rollcallDue then b.modFamily (fun u => { u with
        rollcallDue := false, rollcallRetry := none, refusalMark := false, window := some (c.now + c.cfg.rollcallWindow * 1000) }) else b
    | .intent lot _ => b.modLot lot (fun r =>
        if r.state == .releasing then
          { r with intent := some .sent, deadline := some ⟨.releaseWindow, c.now + c.cfg.releaseWindow * 1000⟩ } else r)
    | .shipped .. => { b with release := { b.release with ring := b.release.ring.map (fun y =>
        if y.isOf e then { y with due := false, retry := none, placement := none } else y) } }
    | _ => b

/-- The owner is told cancelled: only the roll-call cursor waits for that (R30, R166). -/
def Blocks.toldCancelled (b : Blocks) (f : Frame) : Blocks :=
  match f.data with
  | .hold family lot _ => b.cursorCancelled family lot
  | _ => b

/-! ## Attempts (R25, R26, R30) -/

/-- The frame on the wire, with its slot index. -/
def LinkCtl.onWire? (l : LinkCtl) : Option (Nat × SlotEntry) :=
  l.slots.zipIdx.findSome? (fun p => p.1.bind (fun e => if e.onWire then some (p.2, e) else none))

/-- Write one slot. -/
def LinkCtl.setSlot (l : LinkCtl) (i : Nat) (e : Option SlotEntry) : LinkCtl := { l with slots := l.slots.set i e }

/-- Of two frames, the one that is sent first: lower identifier, then lower placement number (R25). -/
def sentFirst (x y : Nat × SlotEntry) : Nat × SlotEntry :=
  if y.2.identifier < x.2.identifier ∨ (y.2.identifier = x.2.identifier ∧ y.2.placement < x.2.placement) then y else x

/-- The PENDING frame that the next attempt sends, with its slot index (R25). -/
def LinkCtl.next? (l : LinkCtl) : Option (Nat × SlotEntry) :=
  (l.slots.zipIdx.filterMap (fun p => p.1.bind (fun e => if e.onWire then none else some (p.2, e)))).foldl
    (fun acc x => match acc with | some y => some (sentFirst y x) | none => some x) none

/-- A send attempt begins at an idle line, when none is under way (R25). -/
def LinkCtl.startAttempt (l : LinkCtl) : LinkCtl :=
  if l.up && l.onWire?.isNone then
    match l.next? with
    | some (i, e) => l.setSlot i (some { e with onWire := true })
    | none => l
  else l

/-- An attempt that did not send its frame: a cancelled frame leaves, an OFFER or BID in QUIET is removed, any
other returns to PENDING (R25, R26, R30, R36). An OFFER or BID that carries the cancel mark is told cancelled in QUIET too, and not
removed, so that its lot's re-offer deadline stays (DESIGN CHOICE, log 87: R30 gives the one outcome, R36 the other). -/
def Blocks.attemptFailed (c : Ctx) (b : Blocks) : Blocks :=
  match b.link.onWire? with
  | none => b
  | some (i, e) =>
    if e.cancelMark then (b.modLink (fun l => l.setSlot i none)).toldCancelled e.frame
    else if b.link.state == .quiet && e.frame.isOfferOrBid then (b.modLink (fun l => l.setSlot i none)).toldUnsent c e
    else b.modLink (fun l => l.setSlot i (some { e with onWire := false }))

/-- The attempt under way sent its frame (R25, R34). -/
def Blocks.attemptSent (c : Ctx) (b : Blocks) : Blocks :=
  match b.link.onWire? with
  | none => b
  | some (i, e) =>
    let b := (b.modLink (fun l => { l.setSlot i none with txErr := l.txErr - 1 })).deriveLink c
    b.toldSent c e

/-- The attempt under way met a transmit error, which the sender signals in its link state, a missing
acknowledgement too (R23, R26, R34, R37; log 61). -/
def Blocks.attemptError (c : Ctx) (b : Blocks) (onlyMissingAck : Bool) : Blocks :=
  match b.link.onWire? with
  | none => b
  | some _ =>
    let up := if b.link.state == .quiet && onlyMissingAck then 0 else 6
    let b := (b.modLink (fun l => { l.drive l.errorSignal with txErr := min 255 (l.txErr + up) })).deriveLink c
    b.attemptFailed c

end Sys2Proof.Machine
end

