-- ==== Sys2Proof/Machine/Operands.lean ====
section
/-! DEFINITION. Operand forms: the ranges of the fields of a heard frame (R193), of a request's values, and the one
operation by which a frame is heard. -/

namespace Sys2Proof.Machine

/-- A station number (R2). -/
def stationOk (n : Nat) : Bool := decide (1 ≤ n) && decide (n ≤ 62)

/-- A lot id (R2). -/
def lotIdOk (n : Nat) : Bool := decide (1 ≤ n) && decide (n ≤ 4294967295)

/-- A family id (R2). -/
def familyIdOk (n : Nat) : Bool := decide (1 ≤ n) && decide (n ≤ 16777215)

/-- A program id (R2). -/
def programIdOk (n : Nat) : Bool := decide (1 ≤ n) && decide (n ≤ 4095)

/-- The fields of an OFFER lie in their ranges (R2, R193). Its units may be any number that their two bytes hold, 0 to 65,535, for
every insertion (DESIGN CHOICE, log 97: the manual gives them no range of their own, and R47 tests for at least 1 before a bid
only). -/
def offerOk (o : OfferFields) : Bool :=
  lotIdOk o.lot && decide (1 ≤ o.product) && decide (o.product ≤ 65535) && familyIdOk o.family && decide (1 ≤ o.insertion) &&
    decide (o.insertion ≤ 4) && decide (o.priority ≤ 3) && decide (o.units ≤ 65535) && decide (1 ≤ o.packageClass) &&
    decide (o.packageClass ≤ 63) && (bandOfCode o.band).isSome && programIdOk o.program

/-- Every field of a heard frame lies in its range; a frame that fails is ignored by every block (R193). A DOSSIER
segment is checked by the collection rules (R71). -/
def frameOk : FrameData → Bool
  | .hold family lot raiser | .clear family lot raiser => familyIdOk family && lotIdOk lot && stationOk raiser
  | .object lot reason st => lotIdOk lot && (reason == 1 || reason == 2) && stationOk st
  | .award lot st | .accept lot st | .take lot st | .decline lot st | .recall lot st => lotIdOk lot && stationOk st
  | .dossier _ => true
  | .offer o => offerOk o
  | .bid lot offerer cost => lotIdOk lot && stationOk offerer && decide (cost ≤ 65535)
  | .rollcall => true
  | .intent lot family => lotIdOk lot && familyIdOk family
  | .shipped lot family good => lotIdOk lot && familyIdOk family && decide (1 ≤ good) && decide (good ≤ 65535)
  | .dispose lot kind disposition requester =>
    lotIdOk lot && (holdKindOfCode kind).isSome && (dispositionOfCode disposition).isSome && stationOk requester
  | .disposed lot kind result requester =>
    lotIdOk lot && (holdKindOfCode kind).isSome && (replyCodeOf result).isSome && stationOk requester

/-- A frame is heard from a station: it counts as a reception; with a station field that is no other station's
it is discarded (R31, R32); with its fields in range its rule is taken (R193). It counts before its rule is taken, which thus
sees the link state derived anew (DESIGN CHOICE, log 74: R34 gives no order). While the link is not up no frame is taken (R19,
R37). -/
def State.hear (s : State) (src : Nat) (f : FrameData) (rule : Ctx → Blocks → Blocks) : State :=
  if s.blocks.link.up then
    s.act (fun c b =>
      let b := b.reception c
      if !stationOk src || src == c.own then b.clashCheck c (frameClass f) (frameKind f) src
      else if frameOk f then rule c b
      else b)
  else s

/-- The reason an OBJECT code names (11.1). -/
def objectReasonOf (code : Nat) : ObjectReason := if code == 1 then .duplicate else .family

end Sys2Proof.Machine
end

