-- ==== Sys2Proof/Machine/Deadlines.lean ====
section
/-! DEFINITION. The expiries: each lets the floor clock run to its deadline and takes what the owner's rule gives; an
expiry whose deadline is absent does nothing (R4). -/

namespace Sys2Proof.Machine

/-- The deadline of a kind that a lot's record has (R4). -/
def State.lotDeadline (s : State) (lot : Nat) (k : DeadlineKind) : Option Nat :=
  match (s.blocks.lot? lot).bind (·.deadline) with
  | some d => if d.kind == k then some d.time else none
  | none => none

/-- Apply a rule to the record of a lot, if the table holds one. -/
def Blocks.onLot (b : Blocks) (lot : Nat) (f : Blocks → LotRecord → Blocks) : Blocks :=
  match b.lot? lot with
  | some r => f b r
  | none => b

/-- When a bid record's life runs out (R59). -/
def BidRecord.expiry (r : BidRecord) : Nat := r.sentAt.getD r.created + Config.bidLifeMs

/-- When the record of a lot in FINISHED may be tried again for release (R172). -/
def State.releaseRetryOf (s : State) (lot : Nat) : Option Nat :=
  match s.blocks.lot? lot with
  | some r => if r.state == .finished then r.releaseRetry else none
  | none => none

/-- The ring entry of a lot whose due SHIPPED is the next to be placed again, with its index and time (R178). -/
def ReleaseUnit.retry? (u : ReleaseUnit) (lot : Nat) : Option (Nat × Nat) :=
  (u.ring.zipIdx.filterMap (fun p =>
    if p.1.lot == lot && p.1.due then p.1.retry.map (fun t => (p.2, t)) else none)).foldl
      (fun acc x => match acc with | some y => some (if x.2 < y.2 then x else y) | none => some x) none

/-- The release window of a lot ends (R174, R177). -/
def Blocks.closeRelease (c : Ctx) (b : Blocks) (r : LotRecord) : Blocks :=
  if r.intent == some .sent then b.ship c r else b.abandonWindow r.lot .notSent (some (c.now + Config.retryMs))

/-- The unanswered entries become STALE, each with its notice (R165, step 1), in the order of the list, oldest entry first
(DESIGN CHOICE, log 84: R165 gives several of them no order). -/
def Blocks.staleEntries (b : Blocks) : Blocks :=
  let gone := b.family.entries.filter (fun e => e.state == .unconfirmed)
  let b := b.modFamily (fun f => { f with
    window := none, entries := f.entries.map (fun e => if e.state == .unconfirmed then { e with state := .stale } else e) })
  gone.foldl (fun b e => b.note (.staleFamily e.family e.lot e.raiser)) b

/-- Every open family-scope hold of a custody lot record has its local entry (R165, step 3). A record marked ending is left
out: the SCRAP that ends it has taken its local entry away, and its holds go with the record (DESIGN CHOICE, log 24: R165
names every open hold, R150 keeps those of an ending record until it is removed). -/
def Blocks.everyHoldListed (b : Blocks) : Bool :=
  b.lots.all (fun r => !(r.inCustody && r.familyScope && !r.ending) || b.ownsEntry r)

/-- The roll-call window ends (R165). -/
def Blocks.rollcallEnds (c : Ctx) (b : Blocks) : Blocks :=
  let b := b.staleEntries
  let b := b.modFamily (fun f => { f with unsettled := false })
  let b := if b.family.saturated && !b.family.refusalMark && b.everyHoldListed then
      b.modFamily (fun f => { f with saturated := false }) else b
  let b := if b.family.saturated && decide (b.family.entries.length < Config.familyCapacity) then b.startRollcall c else b
  b.endFamilyHolds c

/-- The remote disposition has had no answer: its own DISPOSE is cancelled if a slot still holds it (R154). -/
def Blocks.remoteTimeout (b : Blocks) : Blocks :=
  match b.remote with
  | some q => (({ b with remote := none }).cancelSlots q.isOf).note (.disposeResult q.lot q.kind q.disposition .noAnswer)
  | none => b

/-! ## The meanings -/

/-- REOFFER_DEADLINE (R65). -/
def execReofferDeadline (lot : Nat) (s : State) : Host.Outcome State Fault Refusal :=
  .next (s.expire (s.lotDeadline lot .reoffer) (fun _ b => b.modLot lot (fun r => { r with deadline := none })))

/-- BID_WINDOW_CLOSE (R61). -/
def execBidWindowClose (lot : Nat) (s : State) : Host.Outcome State Fault Refusal :=
  .next (s.expire (s.lotDeadline lot .bidWindow) (fun c b => b.onLot lot (fun b r => b.closeWindow c r)))

/-- BID_RECORD_EXPIRY (R59). -/
def execBidRecordExpiry (lot : Nat) (s : State) : Host.Outcome State Fault Refusal :=
  .next (s.expire ((s.blocks.bids.find? (fun r => r.lot == lot)).map BidRecord.expiry) (fun _ b => b.dropBid lot))

/-- ACCEPT_TIMEOUT (R75). -/
def execAcceptTimeout (lot : Nat) (s : State) : Host.Outcome State Fault Refusal :=
  .next (s.expire (s.lotDeadline lot .acceptTimeout) (fun c b => (b.leaveAwarded lot).unsuccessful c lot))

/-- ARRIVAL_TIMEOUT (R78). -/
def execArrivalTimeout (lot : Nat) (s : State) : Host.Outcome State Fault Refusal :=
  .next (s.expire (s.lotDeadline lot .arrivalTimeout) (fun _ b => b.onLot lot Blocks.arrivalExpired))

/-- RELEASE_RETRY_TIME: the lot is tested for release (R172). -/
def execReleaseRetryTime (lot : Nat) (s : State) : Host.Outcome State Fault Refusal :=
  .next (s.expire (s.releaseRetryOf lot) (fun _ b => b))

/-- RELEASE_WINDOW_CLOSE (R177). -/
def execReleaseWindowClose (lot : Nat) (s : State) : Host.Outcome State Fault Refusal :=
  .next (s.expire (s.lotDeadline lot .releaseWindow) (fun c b => b.onLot lot (fun b r => b.closeRelease c r)))

/-- SHIPPED_RETRY (R178). -/
def execShippedRetry (lot : Nat) (s : State) : Host.Outcome State Fault Refusal :=
  .next (s.expire ((s.blocks.release.retry? lot).map (·.2)) (fun c b =>
    match b.release.retry? lot with
    | some x => b.placeShipped c x.1
    | none => b))

/-- ROLLCALL_RETRY (R165). -/
def execRollcallRetry (s : State) : Host.Outcome State Fault Refusal :=
  .next (s.expire s.blocks.family.rollcallRetry (fun c b => if b.family.rollcallDue then b.placeRollcall c else b))

/-- ROLLCALL_WINDOW_END (R165). -/
def execRollcallWindowEnd (s : State) : Host.Outcome State Fault Refusal :=
  .next (s.expire s.blocks.family.window (fun c b => b.rollcallEnds c))

/-- REMOTE_ANSWER_TIMEOUT (R154). -/
def execRemoteAnswerTimeout (s : State) : Host.Outcome State Fault Refusal :=
  .next (s.expire (s.blocks.remote.map (·.deadline)) (fun _ b => b.remoteTimeout))

end Sys2Proof.Machine
end

