-- ==== Sys2Proof/Machine/FramesHeard.lean ====
section
/-! DEFINITION. The frames heard on the floor link: the family hold list's own rules (R160, R161), and one meaning for
each kind of frame. -/

namespace Sys2Proof.Machine

/-- A HOLD heard (R160). -/
def Blocks.holdHeard (c : Ctx) (b : Blocks) (family lot raiser : Nat) : Blocks :=
  match b.family.entry? family lot with
  | some e =>
    if e.isLocal then b
    else b.modFamily (fun f => { f with entries := f.entries.map (fun e =>
      if e.family == family && e.lot == lot then { e with state := .confirmed, raiser := raiser, time := c.now } else e) })
  | none =>
    if b.family.entries.length < Config.familyCapacity then b.storeEntry c ⟨family, lot, raiser, false, .confirmed, c.now, false⟩
    else b.refuseEntry c

/-- A CLEAR heard (R161). -/
def Blocks.clearHeard (c : Ctx) (b : Blocks) (family lot : Nat) : Blocks :=
  match b.family.entry? family lot with
  | some e => if e.isLocal then b else b.removeEntry c family lot
  | none => b

/-- An ACCEPT heard (R74). -/
def Blocks.acceptHeard (c : Ctx) (b : Blocks) (src lot offerer : Nat) : Blocks :=
  match b.lot? lot with
  | some r =>
    if offerer == c.own && r.state == .awarded && r.peer == some src && !r.held then
      ((b.leaveAwarded lot).modLot lot (fun r => { r with state := .outbound, deadline := none })).note (.lotOut lot src)
    else b
  | none => b

/-- A TAKE heard (R77). -/
def Blocks.takeHeard (c : Ctx) (b : Blocks) (src lot offerer : Nat) : Blocks :=
  match b.lot? lot with
  | some r => if offerer == c.own && r.takenBy src then b.takenAway c lot src else b
  | none => b

/-- A DECLINE heard (R79). -/
def Blocks.declineHeard (c : Ctx) (b : Blocks) (src lot offerer : Nat) : Blocks :=
  match b.lot? lot with
  | some r =>
    if offerer == c.own && r.state == .outbound && r.peer == some src then
      (b.unsuccessful c lot).note (.lotDeclined lot src)
    else b
  | none => b

/-- A RECALL heard (R81). -/
def Blocks.recallHeard (c : Ctx) (b : Blocks) (src lot winner : Nat) : Blocks :=
  match b.lot? lot with
  | some r =>
    if winner != c.own then b
    else if r.state.isInbound then (if r.peer == some src then b.cancelArrival c lot .recalled else b)
    else if r.takenFrom == some src then b.answerDue lot .take src
    else b
  | none => b

/-- An OFFER heard: the dispatch unit judges it on the table as it stands, then the custody unit acts (R47, R82). -/
def Blocks.offerHeard (c : Ctx) (b : Blocks) (src : Nat) (o : OfferFields) : Blocks :=
  (b.judgeOffer c src o).custodyOffer c src o.lot

/-- An OBJECT heard: the release unit, then, for reason DUPLICATE, the custody unit (R83, R176). R176 lets the two take it in
either order; with this one the window ends with cause OBJECTION and a retry time (DESIGN CHOICE, log 54). -/
def Blocks.objectHeard (c : Ctx) (b : Blocks) (src lot : Nat) (reason : ObjectReason) (objected : Nat) : Blocks :=
  let b := b.releaseObject c src lot reason objected
  if reason == .duplicate then b.custodyObject c src lot else b

/-! ## The meanings -/

/-- HOLD_HEARD (R160). -/
def execHoldHeard (src family lot raiser : Nat) (s : State) : Host.Outcome State Fault Refusal :=
  .next (s.hear src (.hold family lot raiser) (fun c b => b.holdHeard c family lot raiser))

/-- CLEAR_HEARD (R161). -/
def execClearHeard (src family lot raiser : Nat) (s : State) : Host.Outcome State Fault Refusal :=
  .next (s.hear src (.clear family lot raiser) (fun c b => b.clearHeard c family lot))

/-- OBJECT_HEARD (R83, R176). -/
def execObjectHeard (src lot reason objected : Nat) (s : State) : Host.Outcome State Fault Refusal :=
  .next (s.hear src (.object lot reason objected) (fun c b => b.objectHeard c src lot (objectReasonOf reason) objected))

/-- AWARD_HEARD (R59). -/
def execAwardHeard (src lot winner : Nat) (s : State) : Host.Outcome State Fault Refusal :=
  .next (s.hear src (.award lot winner) (fun c b => b.judgeAward c src lot winner))

/-- DOSSIER_HEARD (R71, R72). -/
def execDossierHeard (src : Nat) (segment : DossierSegment) (s : State) : Host.Outcome State Fault Refusal :=
  .next (s.hear src (.dossier segment) (fun c b => b.collect c src segment))

/-- ACCEPT_HEARD (R74). -/
def execAcceptHeard (src lot offerer : Nat) (s : State) : Host.Outcome State Fault Refusal :=
  .next (s.hear src (.accept lot offerer) (fun c b => b.acceptHeard c src lot offerer))

/-- TAKE_HEARD (R77). -/
def execTakeHeard (src lot offerer : Nat) (s : State) : Host.Outcome State Fault Refusal :=
  .next (s.hear src (.take lot offerer) (fun c b => b.takeHeard c src lot offerer))

/-- DECLINE_HEARD (R79). -/
def execDeclineHeard (src lot offerer : Nat) (s : State) : Host.Outcome State Fault Refusal :=
  .next (s.hear src (.decline lot offerer) (fun c b => b.declineHeard c src lot offerer))

/-- RECALL_HEARD (R81). -/
def execRecallHeard (src lot winner : Nat) (s : State) : Host.Outcome State Fault Refusal :=
  .next (s.hear src (.recall lot winner) (fun c b => b.recallHeard c src lot winner))

/-- OFFER_HEARD (R47, R48, R82). -/
def execOfferHeard (src : Nat) (offer : OfferFields) (s : State) : Host.Outcome State Fault Refusal :=
  .next (s.hear src (.offer offer) (fun c b => b.offerHeard c src offer))

/-- BID_HEARD (R58, R60). -/
def execBidHeard (src lot offerer cost : Nat) (s : State) : Host.Outcome State Fault Refusal :=
  .next (s.hear src (.bid lot offerer cost) (fun c b => b.judgeBid c src lot offerer cost))

/-- ROLLCALL_HEARD (R166). -/
def execRollcallHeard (src : Nat) (s : State) : Host.Outcome State Fault Refusal :=
  .next (s.hear src .rollcall (fun _ b => b.startCursor))

/-- INTENT_HEARD (R175). -/
def execIntentHeard (src lot family : Nat) (s : State) : Host.Outcome State Fault Refusal :=
  .next (s.hear src (.intent lot family) (fun c b => b.judgeIntent c src lot family))

/-- SHIPPED_HEARD (R179). -/
def execShippedHeard (src lot family good : Nat) (s : State) : Host.Outcome State Fault Refusal :=
  .next (s.hear src (.shipped lot family good) (fun c b => b.judgeShipped c src lot))

/-- DISPOSE_HEARD (R153). -/
def execDisposeHeard (src lot kind disposition requester : Nat) (s : State) : Host.Outcome State Fault Refusal :=
  .next (s.hear src (.dispose lot kind disposition requester) (fun c b =>
    match holdKindOfCode kind, dispositionOfCode disposition with
    | some k, some d => b.disposeHeard c src lot k d
    | _, _ => b))

/-- DISPOSED_HEARD (R154). -/
def execDisposedHeard (src lot kind result requester : Nat) (s : State) : Host.Outcome State Fault Refusal :=
  .next (s.hear src (.disposed lot kind result requester) (fun c b =>
    match holdKindOfCode kind, replyCodeOf result with
    | some k, some code => b.disposedHeard c lot k code requester
    | _, _ => b))

end Sys2Proof.Machine
end

