-- ==== Sys2Proof/Machine/LinkEvents.lean ====
section
/-! DEFINITION. The events of the floor link itself: send attempts and their ends, errors, rejoin, discarded frames, and
joining the line. -/

namespace Sys2Proof.Machine

/-- SEND_ATTEMPT: at an idle line the PENDING frame of lowest identifier is begun (R25). -/
def execSendAttempt (s : State) : Host.Outcome State Fault Refusal :=
  .next (s.take (fun _ b => b.modLink LinkCtl.startAttempt))

/-- FRAME_SENT: the frame on the wire is acknowledged and ends without error (R25). -/
def execFrameSent (s : State) : Host.Outcome State Fault Refusal := .next (s.act (fun c b => b.attemptSent c))

/-- ARBITRATION_LOST: neither counter changes (R21, R25, R30). -/
def execArbitrationLost (s : State) : Host.Outcome State Fault Refusal := .next (s.act (fun c b => b.attemptFailed c))

/-- TRANSMIT_ERROR: tx_err rises, the frame is retried unless it is cancelled, removed or lost (R26, R34, R36, R37). -/
def execTransmitError (onlyMissingAck : Bool) (s : State) : Host.Outcome State Fault Refusal :=
  .next (s.act (fun c b => b.attemptError c onlyMissingAck))

/-- RECEIVE_ERROR: the error is signalled, after the frame's acknowledgement where that slot had passed, and rx_err rises by one
(R22, R23, R34). -/
def execReceiveError (s : State) : Host.Outcome State Fault Refusal :=
  .next (if s.blocks.link.up then s.act (fun c b => b.receiveError c) else s)

/-- How long the line has still to be idle before the station rejoins (R38). -/
def State.rejoinLeft (s : State) : Nat := s.image.rejoinInterval * 1000 - s.blocks.link.rejoinAcc

/-- How long it takes until then: the idle time left and the time for which the line is busy meanwhile, which the floor
decides (R38; log 3). -/
def State.rejoinWait (s : State) : Nat :=
  if s.rejoinLeft = 0 then 0 else s.rejoinLeft + Config.lineBusyMs s.clock s.rejoinLeft

/-- REJOIN: the rejoin accumulator reaches the rejoin interval (R38). -/
def execRejoin (s : State) : Host.Outcome State Fault Refusal :=
  .next (if s.live && s.blocks.link.state == .withdrawn then (s.elapse s.rejoinWait).act (fun c b => b.rejoin c) else s)

/-- FRAME_DISCARDED: the frame counts as a reception and reaches no block (R31, R32). -/
def execFrameDiscarded (cls kind src : Nat) (s : State) : Host.Outcome State Fault Refusal :=
  .next (if s.blocks.link.up then s.act (fun c b => (b.reception c).clashCheck c cls kind src) else s)

/-- JOIN_LINE: the link controller has observed the line idle and takes part from then on (R19, R170). -/
def execJoinLine (s : State) : Host.Outcome State Fault Refusal :=
  .next (s.act (fun c b => b.joinLine c))

end Sys2Proof.Machine
end

