-- ==== Sys2Proof/Machine/SetupEvents.lean ====
section
/-! DEFINITION. The events of the cell's setup (chapter 5): the tester's answers, the handler's temperature, the kit
lines, the fault lines, and the engine's deadlines. -/

namespace Sys2Proof.Machine

/-! ## The end of a tester command -/

/-- An operator command has ended: a SLOT notice names the slot, and a walk that waited begins (R96, R108, R109). -/
def Blocks.operatorEnded (c : Ctx) (b : Blocks) (n : Nat) : Blocks :=
  (b.note (.slot n (b.setup.slotState n) ((b.setup.slot? n).bind (·.program)))).resumeWaiting c

/-- The deferred HANDLER_FAULT of the walk (R106). -/
def SetupUnit.deferredFault (u : SetupUnit) : Bool := match u.walk with | some w => w.deferred.isSome | none => false

/-- The answer to a step's LOAD or EVICT has been taken: a deferred fault is taken, else the step goes on (R106). -/
def Blocks.afterAnswer (c : Ctx) (b : Blocks) (go : Blocks → Blocks) : Blocks :=
  if b.setup.deferredFault then b.faultEngine c .handlerFault else go b

/-- LOADED (R89, R90, R98, R108). -/
def Blocks.loadedAnswer (c : Ctx) (b : Blocks) (n : Nat) : Blocks :=
  match b.setup.inFlight with
  | some (.load m p, o) =>
    if m != n then b
    else
      let b := b.modSetup (fun u => u.endCommand.setSlot n .resident (some p))
      match o with
      | .operator => b.operatorEnded c n
      | _ => b.afterAnswer c (Blocks.completeStep c)
  | _ => b

/-- LOAD_FAILED: the slot is INVALID with the program its LOAD named, also where an unasked EVICTED has emptied it during a
preload (DEDUCED, log 64: R87 has the program id absent in INVALID only while none has been known) (R89, R90, R98,
R108). -/
def Blocks.loadFailedAnswer (c : Ctx) (b : Blocks) (n : Nat) : Blocks :=
  match b.setup.inFlight with
  | some (.load m p, o) =>
    if m != n then b
    else
      let b := b.modSetup (fun u => u.endCommand.setSlot n .invalid (some p))
      match o with
      | .operator => b.operatorEnded c n
      | _ => b.faultEngine c .loadFailed
  | _ => b

/-- The LOAD_PROGRAM step in flight sends LOAD for the slot its EVICT emptied (R98). -/
def Blocks.loadEvicted (c : Ctx) (n : Nat) (b : Blocks) : Blocks :=
  match b.setup.currentStep? c, b.setup.walk.bind (fun w => b.lot? w.lot) with
  | some st, some r => b.loadSlot n (stepProgram st r.program)
  | _, _ => b

/-- A slot number of the cell (R90). -/
def SetupUnit.isSlot (u : SetupUnit) (n : Nat) : Bool := decide (1 ≤ n) && decide (n ≤ u.slots.length)

/-- An EVICTED that answers no command in flight (R90). -/
def SetupUnit.evictedUnasked (u : SetupUnit) (n : Nat) : SetupUnit :=
  if u.isSlot n && u.slotState n != .loading then u.setSlot n .empty none else u

/-- EVICTED (R89, R90, R98, R109). -/
def Blocks.evictedAnswer (c : Ctx) (b : Blocks) (n : Nat) : Blocks :=
  match b.setup.inFlight with
  | some (.evict m, o) =>
    if m != n then b.modSetup (fun u => u.evictedUnasked n)
    else
      let b := b.modSetup (fun u => u.endCommand.setSlot n .empty none)
      match o with
      | .operator => b.operatorEnded c n
      | _ => b.afterAnswer c (Blocks.loadEvicted c n)
  | _ => b.modSetup (fun u => u.evictedUnasked n)

/-- The chain end goes on from its fourth point: the program's slot is active (R103). -/
def Blocks.chainEndSelected (c : Ctx) (b : Blocks) : Blocks :=
  match b.setup.walk with
  | none => b
  | some w =>
    let b := b.modSetup (fun u => u.modWalk (fun w => { w with deadline := none }))
    match b.lot? w.lot with
    | some r => if r.held then b else b.endWalk c w.lot
    | none => b

/-- What a SELECTED does to the step or the chain end that awaits one: `ok` says that the awaited slot is active
(R101, R103). -/
def Blocks.afterSelected (c : Ctx) (b : Blocks) (o : Origin) (ok : Bool) : Blocks :=
  match o with
  | .operator => b
  | .step =>
    if !b.setup.inStep then b
    else if ok then b.sendCommand .check .step else b.faultEngine c .programMissing
  | .chainEnd =>
    if !b.setup.atEnd then b
    else if ok then b.chainEndSelected c else b.faultEngine c .programMissing

/-- SELECTED (R88 to R90, R101, R103, R104). -/
def Blocks.selectedAnswer (c : Ctx) (b : Blocks) (n : Nat) : Blocks :=
  if !b.setup.isSlot n then b
  else match b.setup.inFlight with
    | some (.select m, o) =>
      let b := if m == n then b.modSetup SetupUnit.endCommand else b
      let b := b.selectSlot n
      b.afterSelected c o (m == n && b.programActive)
    | _ => b.selectSlot n

/-- CHECK_PASS (R89, R90, R101). -/
def Blocks.checkPassAnswer (c : Ctx) (b : Blocks) : Blocks :=
  match b.setup.inFlight with
  | some (.check, _) =>
    (b.modSetup (fun u => { u.endCommand with slots := match u.active with
      | some n => u.slots.modify (n - 1) (fun p => { p with correlated := some c.now })
      | none => u.slots })).completeStep c
  | _ => b

/-- The active slot, if any, becomes INVALID, and no slot is active (R89, R90). -/
def SetupUnit.failActive (u : SetupUnit) : SetupUnit :=
  match u.active with
  | some n => u.invalidate n
  | none => u

/-- CHECK_FAIL (R89, R90, R101). -/
def Blocks.checkFailAnswer (c : Ctx) (b : Blocks) : Blocks :=
  match b.setup.inFlight with
  | some (.check, _) => (b.modSetup (fun u => u.endCommand.failActive)).faultEngine c .checkFail
  | _ => b.modSetup SetupUnit.failActive

/-! ## Temperature (R91, R92) -/

/-- AT_TEMP (R91, R99). -/
def Blocks.atTempTaken (c : Ctx) (b : Blocks) (band : Nat) : Blocks :=
  let t := b.setup.thermal
  if (bandOfCode band).isNone || bandOfCode band != t.band then b
  else if b.setup.inStepOf c .setBand && t.phase == .ramping then
    let full := match b.setup.walk.bind (fun w => b.lot? w.lot) with | some r => c.fullSoak r | none => 0
    let b := b.modSetup (fun u => { u with thermal := u.thermal.startSoak full })
    if full == 0 then b.completeStep c else b
  else match t.phase with
    | .ramping | .unknown => b.modSetup (fun u => { u with thermal := { u.thermal with phase := .atSetpoint } })
    | _ => b

/-- The soak timer has reached 0 (R92, R99). -/
def Blocks.soakEnds (c : Ctx) (b : Blocks) : Blocks :=
  if b.setup.thermal.phase == .soaking then
    let b := b.modSetup (fun u => { u with thermal := { u.thermal with phase := .ready, soak := 0 } })
    if b.setup.inStepOf c .setBand then b.completeStep c else b
  else b

/-- TEMP_LOST: the engine first, then the touchdown controller (R92, R129). -/
def Blocks.tempLostTaken (c : Ctx) (b : Blocks) : Blocks :=
  let b := b.modSetup (fun u => { u with thermal := { u.thermal with phase := .unknown, soak := 0 } })
  let b : Blocks :=
    if b.setup.inStepOf c .setBand then
      match b.setup.currentStep? c, b.setup.walk.bind (fun w => b.lot? w.lot) with
      | some st, some r => b.sendSetpoint (stepBand st r.band)
      | _, _ => b
    else match b.setup.walk, b.setup.engine with
      | some w, .running | some w, .pausing | some w, .paused => if w.bandMark then b.faultEngine c .tempLost else b
      | _, _ => b
  b.tempLostInTest c

/-! ## Kit (R93, R100, R129) -/

/-- A change of the kit taken, at the engine (R100). A CONFIRM_KIT step in flight completes or waits on. -/
def Blocks.kitInSetup (c : Ctx) (b : Blocks) : Blocks :=
  if b.setup.inStepOf c .confirmKit then
    match b.setup.currentStep? c, b.setup.walk.bind (fun w => b.lot? w.lot) with
    | some st, some r => if b.setup.kitTaken == stepKit st (c.recipe r.product).packageClass then b.completeStep c else b
    | _, _ => b
  else match b.setup.walk, b.setup.engine with
    | some w, .running | some w, .pausing | some w, .paused => if w.kitMark then b.faultEngine c .kitChanged else b
    | _, _ => b

/-- The kit lines have held a value for 50 ms (R93). A change is taken by the touchdown controller with a lot in test, and by
the engine otherwise, as the cell stands when it is taken (R100, R129). -/
def Blocks.kitHeld (c : Ctx) (b : Blocks) : Blocks :=
  let old := b.setup.kitTaken
  let new := c.pins.kitLines.toNat
  let b := b.modSetup (fun u => { u with kitTaken := new, kitSince := none })
  if old == new then b else if b.testLot?.isSome then b.kitInTest c old new else b.kitInSetup c

/-! ## Fault lines (R106, R108, R109, R116, R126) -/

/-- An operator command ends without its answer: its slot stays INVALID, and a preload is cancelled (R108, R109). -/
def Blocks.endOperatorCommand (c : Ctx) (b : Blocks) : Blocks :=
  match b.setup.inFlight with
  | some (.load n _, .operator) => ((b.modSetup SetupUnit.endCommand).toTester (.cancel n)).operatorEnded c n
  | some (.evict n, .operator) => (b.modSetup SetupUnit.endCommand).operatorEnded c n
  | _ => b

/-- TESTER_FAULT asserts: the latch is set and a touchdown in TESTING aborted; an operator command ends; a step in
flight faults (R106, R108, R116, R126). -/
def Blocks.testerFaultTaken (c : Ctx) (b : Blocks) : Blocks :=
  let b := b.setLatch.abortTesting c
  let stepping := b.setup.inStep
  let b := b.endOperatorCommand c
  if stepping then b.faultEngine c .testerFault else b

/-- HANDLER_FAULT asserts: the latch is set; a step in flight faults, or its fault is deferred while a LOAD or
EVICT is in flight (R106, R116). -/
def Blocks.handlerFaultTaken (c : Ctx) (b : Blocks) : Blocks :=
  let b := b.setLatch
  if b.setup.inStep then
    match b.setup.inFlight with
    | some (.load .., .step) | some (.evict .., .step) =>
      b.modSetup (fun u => u.modWalk (fun w => { w with deferred := some .handlerFault }))
    | _ => b.faultEngine c .handlerFault
  else b

/-! ## The engine's deadlines -/

/-- The deadline of the step in flight (R95, R106). -/
def SetupUnit.stepDeadline? (u : SetupUnit) : Option Nat := u.walk.bind (fun w => if w.inStep then w.deadline else none)

/-- The selection deadline of the chain end (R95, R103). -/
def SetupUnit.selectionDeadline? (u : SetupUnit) : Option Nat := if u.atEnd then u.walk.bind (·.deadline) else none

/-! ## The meanings -/

/-- STEP_TIMEOUT (R106). -/
def execStepTimeout (s : State) : Host.Outcome State Fault Refusal :=
  .next (s.expire s.blocks.setup.stepDeadline? (fun c b => b.faultEngine c .timeout))

/-- SELECTION_DEADLINE (R103, R106). -/
def execSelectionDeadline (s : State) : Host.Outcome State Fault Refusal :=
  .next (s.expire s.blocks.setup.selectionDeadline? (fun c b => b.faultEngine c .timeout))

/-- OPERATOR_COMMAND_TIMEOUT (R108, R109). -/
def execOperatorCommandTimeout (s : State) : Host.Outcome State Fault Refusal :=
  .next (s.expire s.blocks.setup.operatorDeadline (fun c b => b.endOperatorCommand c))

/-- SOAK_END: the soak runs down and ends (R92). -/
def execSoakEnd (s : State) : Host.Outcome State Fault Refusal :=
  .next (if s.live && s.blocks.setup.thermal.phase == .soaking then
      (s.elapse s.blocks.setup.thermal.soak).act (fun c b => b.soakEnds c)
    else s)

/-- KIT_LINES_CHANGE: the lines stand at a new level and the debounce begins; not while the part does not run, when
it ignores the kit lines (R93, R190). -/
def execKitLinesChange (lines : BitVec 6) (s : State) : Host.Outcome State Fault Refusal :=
  .next (if s.pins.kitLines == lines then s
    else ({ s with pins := { s.pins with kitLines := lines } }).take (fun c b =>
      b.modSetup (fun u => { u with kitSince := some c.now })))

/-- KIT_TAKEN: the lines have held their value for 50 ms (R93). -/
def execKitTaken (s : State) : Host.Outcome State Fault Refusal :=
  .next (s.expire (s.blocks.setup.kitSince.map (· + Config.kitDebounceMs)) (fun c b => b.kitHeld c))

/-- TESTER_FAULT: the asserting edge of the line (R106, R108, R116, R126). The edge alone ends an operator command, one taken
while the pin already stands asserted too (DESIGN CHOICE, log 98). -/
def execTesterFault (s : State) : Host.Outcome State Fault Refusal :=
  .next (if s.pins.testerFault then s
    else ({ s with pins := { s.pins with testerFault := true } }).act (fun c b => b.testerFaultTaken c))

/-- HANDLER_FAULT: the asserting edge of the line (R106, R116). -/
def execHandlerFault (s : State) : Host.Outcome State Fault Refusal :=
  .next (if s.pins.handlerFault then s
    else ({ s with pins := { s.pins with handlerFault := true } }).act (fun c b => b.handlerFaultTaken c))

/-- FAULT_LINE_DEASSERTED: the latch is not cleared by it (R116). -/
def execFaultLineDeasserted (line : FaultLine) (s : State) : Host.Outcome State Fault Refusal :=
  .next { s with pins := match line with
    | .tester => { s.pins with testerFault := false }
    | .handler => { s.pins with handlerFault := false } }

/-- TEST_BUSY_CHANGE: the line stands at a new level (R113, R128). -/
def execTestBusyChange (level : Bool) (s : State) : Host.Outcome State Fault Refusal :=
  .next { s with pins := { s.pins with testBusy := level } }

/-- A message of a port is taken, unless the receiver ignores bytes after a discard (R194). -/
def State.portMessage (s : State) (port : Port) (rule : Ctx → Blocks → Blocks) : State :=
  if s.blocks.ports.ignoring port then s else s.act rule

/-- LOADED (R89, R90). -/
def execLoaded (slot : Nat) (s : State) : Host.Outcome State Fault Refusal :=
  .next (s.portMessage .tester (fun c b => b.loadedAnswer c slot))

/-- LOAD_FAILED (R89, R90). -/
def execLoadFailed (slot : Nat) (s : State) : Host.Outcome State Fault Refusal :=
  .next (s.portMessage .tester (fun c b => b.loadFailedAnswer c slot))

/-- CANCELLED: taken and ignored (R90). -/
def execCancelled (_slot : Nat) (s : State) : Host.Outcome State Fault Refusal := .next s

/-- EVICTED (R89, R90). -/
def execEvicted (slot : Nat) (s : State) : Host.Outcome State Fault Refusal :=
  .next (s.portMessage .tester (fun c b => b.evictedAnswer c slot))

/-- SELECTED (R89, R90). -/
def execSelected (slot : Nat) (s : State) : Host.Outcome State Fault Refusal :=
  .next (s.portMessage .tester (fun c b => b.selectedAnswer c slot))

/-- CHECK_PASS (R89, R90). -/
def execCheckPass (s : State) : Host.Outcome State Fault Refusal :=
  .next (s.portMessage .tester (fun c b => b.checkPassAnswer c))

/-- CHECK_FAIL (R89, R90). -/
def execCheckFail (s : State) : Host.Outcome State Fault Refusal :=
  .next (s.portMessage .tester (fun c b => b.checkFailAnswer c))

/-- AT_TEMP (R91). -/
def execAtTemp (band : Nat) (s : State) : Host.Outcome State Fault Refusal :=
  .next (s.portMessage .handler (fun c b => b.atTempTaken c band))

/-- TEMP_LOST (R92, R129). -/
def execTempLost (s : State) : Host.Outcome State Fault Refusal :=
  .next (s.portMessage .handler (fun c b => b.tempLostTaken c))

end Sys2Proof.Machine
end

