-- ==== Sys2Proof/Machine/TestEvents.lean ====
section
/-! DEFINITION. The events of the touchdown cycle (chapter 6) and of the cell ports' framing (R194). -/

namespace Sys2Proof.Machine

/-- TD_READY (R121, R122). -/
def execTdReady (occupied : BitVec 8) (s : State) : Host.Outcome State Fault Refusal :=
  .next (s.portMessage .handler (fun c b => b.ready c (occupiedSites occupied)))

/-- TD_RESULT (R124). -/
def execTdResult (sequence : Nat) (bins : List Nat) (s : State) : Host.Outcome State Fault Refusal :=
  .next (s.portMessage .tester (fun c b => b.result c sequence bins))

/-- SORTED (R125). -/
def execSorted (s : State) : Host.Outcome State Fault Refusal :=
  .next (s.portMessage .handler (fun c b => b.sortedTaken c))

/-- The touchdown deadline, in TESTING (R120). -/
def TdUnit.deadline? (u : TdUnit) : Option Nat := u.touchdown.bind (fun t => if t.stage == .testing then t.deadline else none)

/-- TD_TIMEOUT: the touchdown is aborted and TD_TIMEOUT is queued (R126). -/
def execTdTimeout (s : State) : Host.Outcome State Fault Refusal :=
  .next (s.expire s.blocks.td.deadline? (fun c b => (b.abortTesting c).note .tdTimeout))

/-- LOT_EMPTY (R130). -/
def execLotEmpty (s : State) : Host.Outcome State Fault Refusal :=
  .next (s.portMessage .handler (fun c b => b.lotEmpty c))

/-- PORT_MESSAGE_DISCARDED: PORT_ERROR is queued, and the receiver ignores bytes until its line has been idle (R194), also where the
discard comes of a gap of 20 ms: that gap does not count as the idle awaited (DESIGN CHOICE, log 81). -/
def execPortMessageDiscarded (port : Port) (s : State) : Host.Outcome State Fault Refusal :=
  .next (if s.blocks.ports.ignoring port then s
    else s.take (fun _ b => ({ b with ports := b.ports.setIgnoring true port }).note (.portError port .format)))

/-- PORT_LINE_IDLE: the next byte begins a message. The line's idle ends the ignoring whether or not the part runs (R194). -/
def execPortLineIdle (port : Port) (s : State) : Host.Outcome State Fault Refusal :=
  .next { s with blocks := { s.blocks with ports := s.blocks.ports.setIgnoring false port } }

end Sys2Proof.Machine
end

