-- ==== Sys2Proof/Machine/Requests.lean ====
section
/-! DEFINITION. The rules of the operator's requests (R184), each with its checks in the manual's order and its reply. -/

namespace Sys2Proof.Machine

/-- Answer NO with a code. -/
def Blocks.no (b : Blocks) (code : ReplyCode) : Blocks := b.reply (.no code)

/-- Answer OK. -/
def Blocks.ok (b : Blocks) : Blocks := b.reply .ok

/-! ## Lots (R14, R65, R76, R80) -/

/-- The first refusal of an ENTER that applies (R14). -/
def Blocks.enterRefusal? (c : Ctx) (b : Blocks) (lot product qty family priority : Nat) : Option ReplyCode :=
  if !lotIdOk lot || qty == 0 || decide (60000 < qty) || !familyIdOk family || decide (3 < priority) || product == 0 ||
      decide (65535 < product) then some .badValue
  else if (c.recipe? product).isNone then some .unknownProduct
  else if (b.lot? lot).isSome || b.bids.any (fun r => r.lot == lot) then some .duplicate
  else if Config.lotCapacity ≤ b.places then some .full
  else none

/-- The record an ENTER makes (R14). -/
def enteredRecord (c : Ctx) (lot product qty family priority : Nat) : LotRecord :=
  { LotRecord.fresh lot .awaiting with
    product := product, family := family, priority := priority, entryQty := qty,
    route := (c.recipe product).route.map (fun i => ⟨i.band, i.program⟩) }

/-- ENTER (R14, R163). -/
def enterRule (lot product qty family priority : Nat) (c : Ctx) (b : Blocks) : Blocks :=
  match b.enterRefusal? c lot product qty family priority with
  | some code => b.no code
  | none => ((b.addLot (enteredRecord c lot product qty family priority)).applyFamilyHold c lot).reply (.okLot lot)

/-- ARRIVE (R76). -/
def arriveRule (lot : Nat) (c : Ctx) (b : Blocks) : Blocks :=
  if !lotIdOk lot then b.no .badValue
  else match (b.lot? lot).filter (fun r => r.state == .inbound && !b.declined lot) with
    | none => b.no .unknownLot
    | some r =>
      let peer := r.peer.getD 0
      let b := b.modLot lot (fun r => { r with
        state := .queued, deadline := none, takenFrom := r.peer, peer := none, arrival := some c.now })
      ((b.answerDue lot .take peer).applyFamilyHold c lot).reply (.okLot lot)

/-- RECALL (R80). -/
def recallRule (lot : Nat) (_c : Ctx) (b : Blocks) : Blocks :=
  if !lotIdOk lot then b.no .badValue
  else match b.lot? lot with
    | none => b.no .unknownLot
    | some r =>
      if r.state != .outbound then b.no .wrongState
      else if b.link.state == .withdrawn then b.no .linkDown
      else
        ((b.modLot lot (fun r => { r with state := .awaiting, recallMark := r.peer, peer := none, deadline := none })).answerDue
          lot .recall (r.peer.getD 0)).ok

/-- REOFFER (R65). -/
def reofferRule (lot : Nat) (_c : Ctx) (b : Blocks) : Blocks :=
  if !lotIdOk lot then b.no .badValue
  else match b.lot? lot with
    | none => b.no .unknownLot
    | some r =>
      if r.state != .awaiting then b.no .wrongState
      else (b.modLot lot (fun r => { r with attempts := 0, stranded := false, deadline := none })).ok

/-! ## The changeover engine (R104, R105, R108, R109) -/

/-- Make the engine state `e`. -/
def Blocks.setEngine (b : Blocks) (e : EngineState) : Blocks := b.modSetup (fun u => { u with engine := e })

/-- PAUSE (R104). -/
def pauseRule (_c : Ctx) (b : Blocks) : Blocks :=
  match b.setup.engine with
  | .idle => b.no .notActive
  | .faulted => b.no .wrongState
  | .running =>
    if b.setup.inStep then (b.setEngine .pausing).ok
    else ((b.modSetup (fun u => u.modWalk (fun w => { w with deadline := none }))).setEngine .paused).ok
  | .pausing | .paused => b.ok

/-- CONTINUE in PAUSED: the next record, the chain head, or the chain end (R96, R104). -/
def Blocks.continuePaused (c : Ctx) (b : Blocks) : Blocks :=
  let b := b.setEngine .running
  match b.setup.walk with
  | none => b
  | some w =>
    if !w.begun then (if b.setup.inFlight.isSome then b else b.walkFrom c w.current)
    else match w.current with
      | none => b.chainEnd c
      | some n => b.walkFrom c (c.stepRecord n).next

/-- CONTINUE (R104). -/
def continueRule (c : Ctx) (b : Blocks) : Blocks :=
  match b.setup.engine with
  | .idle => b.no .notActive
  | .faulted => b.no .wrongState
  | .running => if b.setup.inStepOf c .waitOperator then (b.completeStep c).ok else b.no .wrongState
  | .pausing => if b.setup.inStepOf c .waitOperator then (b.completeStep c).ok else (b.setEngine .running).ok
  | .paused => (b.continuePaused c).ok

/-- ABORT (R105). -/
def abortRule (c : Ctx) (b : Blocks) : Blocks :=
  match b.setup.engine, b.setup.walk with
  | .idle, _ => b.no .notActive
  | _, none => b.no .notActive
  | _, some w =>
    let b := b.dropWalk c
    let b := b.modLot w.lot (fun r => { r with state := .queued, account := none })
    (b.raise c w.lot .operator).ok

/-- The second check of R108: the engine or the cell is working, or an operator command is in flight. -/
def Blocks.setupBusy (b : Blocks) : Bool :=
  b.setup.engine != .idle || b.testLot?.isSome || (match b.setup.inFlight with | some (_, o) => o == .operator | none => false)

/-- An operator command is sent, its timeout running (R108, R109). -/
def Blocks.operatorCommand (c : Ctx) (b : Blocks) (cmd : TesterCmd) : Blocks :=
  (b.sendCommand cmd .operator).modSetup (fun u => { u with operatorDeadline := some (c.now + Config.operatorCommandMs) })

/-- PRELOAD (R108). It does not look at TESTER_FAULT: taken while the pin stands asserted it ends at its answer, at its 900 s or
at the pin's next assertion (DESIGN CHOICE, log 98: R108 has it end when TESTER_FAULT is asserted). -/
def preloadRule (slot program : Nat) (c : Ctx) (b : Blocks) : Blocks :=
  if !b.setup.isSlot slot || !programIdOk program then b.no .badValue
  else if b.setupBusy then b.no .busy
  else if b.setup.slotState slot != .empty then b.no .slotNotEmpty
  else if b.setup.resident program then b.no .duplicate
  else ((b.operatorCommand c (.load slot program)).modSetup (fun u => u.setSlot slot .invalid (some program))).ok

/-- EVICT (R109). It does not look at TESTER_FAULT, as PRELOAD does not (DESIGN CHOICE, log 98). -/
def evictRule (slot : Nat) (c : Ctx) (b : Blocks) : Blocks :=
  if !b.setup.isSlot slot then b.no .badValue
  else if b.setupBusy then b.no .busy
  else if b.setup.slotState slot == .empty then b.no .wrongState
  else ((b.operatorCommand c (.evict slot)).modSetup (fun u => u.invalidate slot)).ok

/-! ## The touchdown controller (R115, R119, R126) -/

/-- START (R119). -/
def startRule (c : Ctx) (b : Blocks) : Blocks :=
  match b.testLot? with
  | none => b.no .notActive
  | some r =>
    if r.held then b.no .wrongState
    else if c.pins.testerFault || c.pins.handlerFault then b.no .busy
    else ((b.clearLatch c).modTd (fun u => { u with stopMark := false })).ok

/-- STOP (R119). -/
def stopRule (_c : Ctx) (b : Blocks) : Blocks :=
  let b := b.setLatch
  (if b.td.stopMark then b
    else if b.td.moving then b.modTd (fun u => { u with stopMark := true })
    else b.note .stopped).ok

/-- ABORT_TD (R126). -/
def abortTdRule (c : Ctx) (b : Blocks) : Blocks :=
  match b.td.touchdown with
  | none => b.no .notActive
  | some t => (match t.stage with
    | .testing | .parked => b.abortTouchdown c t
    | .sorting => b.endTouchdown c t).ok

/-- The checks of the site requests (R115). -/
def Blocks.siteRefusal? (b : Blocks) (site : Nat) : Option ReplyCode :=
  if site == 0 || decide (8 < site) || b.td.site site == .fittedOff then some .badValue
  else if b.td.touchdown.isSome then some .busy
  else none

/-- SITE_ENABLE (R115). The site's fail_run is set to 0 in the account of the lot that has the cell, also in the one that a lot
in SETUP has kept over a THERMAL RESUME (DEDUCED, log 77: R115 names a lot in IN_TEST or CLOSING, R137 names no state). -/
def siteEnableRule (site : Nat) (_c : Ctx) (b : Blocks) : Blocks :=
  match b.siteRefusal? site with
  | some code => b.no code
  | none =>
    if b.td.site site == .enabled then b.ok
    else
      let b := b.modTd (fun u => u.setSite site .enabled)
      let b := match b.cellLot? with
        | some r => b.modLot r.lot (fun r => r.modAccount (fun a => { a with failRun := a.failRun.set (site - 1) 0 }))
        | none => b
      (b.note (.siteEnabled site)).ok

/-- SITE_DISABLE (R114, R115). Its SITE_HELD notice names the lot in IN_TEST or CLOSING when there is one (DESIGN CHOICE, log 69:
R115 gives the notice its reason only). -/
def siteDisableRule (site : Nat) (c : Ctx) (b : Blocks) : Blocks :=
  match b.siteRefusal? site with
  | some code => b.no code
  | none =>
    if b.td.site site != .enabled then b.ok
    else
      let b := b.modTd (fun u => u.setSite site (.held .operator))
      let b := b.note (.siteHeld (b.testLot?.map (·.lot)) site .operator [])
      (match b.testLot? with
        | some r => if b.td.enabledCount < c.cfg.minSites then b.raiseSites c r.lot else b
        | none => b).ok

/-! ## Holds and dispositions (R144, R145, R152) -/

/-- HOLD (R144). -/
def holdRule (lot : Nat) (c : Ctx) (b : Blocks) : Blocks :=
  if !lotIdOk lot then b.no .badValue
  else match b.lot? lot with
    | none => b.no .unknownLot
    | some r =>
      if r.state == .awarded || r.state == .outbound then b.no .moving
      else if r.state.isInbound || r.ending then b.no .wrongState
      else (b.raise c lot .operator).ok

/-- DISPOSE (R145, R152). -/
def disposeRule (lot : Nat) (kind : Option HoldKind) (disposition : Option Disposition) (c : Ctx) (b : Blocks) : Blocks :=
  match kind, disposition with
  | some k, some d =>
    if !lotIdOk lot then b.no .badValue
    else match (b.lot? lot).filter (·.inCustody) with
      | some r =>
        let x := b.dispose c r k d .terminal
        x.1.reply (replyOf x.2)
      | none =>
        let x := b.disposeRemote c lot k d
        x.1.reply (replyOf x.2)
  | _, _ => b.no .badValue

/-! ## The family hold list (R168), RESTART (R192) -/

/-- PURGE (R168). -/
def purgeRule (family lot : Nat) (c : Ctx) (b : Blocks) : Blocks :=
  if !familyIdOk family || !lotIdOk lot then b.no .badValue
  else match b.family.entry? family lot with
    | some e => if e.state == .stale then (b.removeEntry c family lot).ok else b.no .notStale
    | none => b.no .notStale

/-- RESTART: answered OK; the warm reset is taken once that reply, and those queued before it, have been sent (R192). -/
def restartRule (_c : Ctx) (b : Blocks) : Blocks :=
  let b := b.ok
  { b with op := { b.op with restarting := true, beforeReset := b.op.replies.length } }

end Sys2Proof.Machine
end

