-- ==== Sys2Proof/Machine/Status.lean ====
section
/-! DEFINITION. STATUS (R186): the snapshots of lots, cell, link, family hold list and released ring, as lines of
fields; and the words by which replies and notices name things. -/

namespace Sys2Proof.Machine

/-! ## Words -/

/-- The word of a lot state (R3). -/
def lotStateWord : LotState → String
  | .awaiting => "AWAITING"
  | .offered => "OFFERED"
  | .awarded => "AWARDED"
  | .outbound => "OUTBOUND"
  | .inboundPending => "INBOUND_PENDING"
  | .inbound => "INBOUND"
  | .queued => "QUEUED"
  | .setup => "SETUP"
  | .inTest => "IN_TEST"
  | .closing => "CLOSING"
  | .finished => "FINISHED"
  | .releasing => "RELEASING"

/-- The word of a hold kind (R13). -/
def holdKindWord : HoldKind → String
  | .yield => "YIELD"
  | .bin => "BIN"
  | .sites => "SITES"
  | .recon => "RECON"
  | .setup => "SETUP"
  | .thermal => "THERMAL"
  | .ident => "IDENT"
  | .restart => "RESTART"
  | .family => "FAMILY"
  | .operator => "OPERATOR"

/-- The hold kinds in the order of R13. -/
def holdKinds : List HoldKind := [.yield, .bin, .sites, .recon, .setup, .thermal, .ident, .restart, .family, .operator]

/-- The word of a band. -/
def bandWord : Band → String
  | .cold => "COLD"
  | .room => "ROOM"
  | .hot => "HOT"

/-- The word of a scope. -/
def scopeWord : Scope → String
  | .lot => "LOT"
  | .family => "FAMILY"

/-- The word of a mark or a flag. -/
def flagWord (v : Bool) : String := if v then "set" else "clear"

/-- The word of a phase. -/
def phaseWord : Phase → String
  | .main => "MAIN"
  | .voidPass => "VOID_PASS"

/-- The word of PENDING or SENT. -/
def sendWord : SendState → String
  | .pending => "PENDING"
  | .sent => "SENT"

/-- The word of a link state (R35). -/
def linkStateWord : LinkState → String
  | .normal => "NORMAL"
  | .warned => "WARNED"
  | .quiet => "QUIET"
  | .withdrawn => "WITHDRAWN"

/-- The word of a frame kind by class and code (R20). A combination that names no kind, which STATION_CLASH may have to name
(R32), is written as its class and its kind code with a full stop between (DESIGN CHOICE, log 55: the manual gives it no
name). -/
def frameKindWord : Nat → Nat → String
  | 0, 0 => "HOLD"
  | 0, 1 => "CLEAR"
  | 0, 2 => "OBJECT"
  | 1, 0 => "AWARD"
  | 1, 1 => "DOSSIER"
  | 1, 2 => "ACCEPT"
  | 1, 3 => "TAKE"
  | 1, 4 => "DECLINE"
  | 1, 5 => "RECALL"
  | 2, 0 => "OFFER"
  | 2, 1 => "BID"
  | 3, 0 => "ROLLCALL"
  | 3, 1 => "INTENT"
  | 3, 2 => "SHIPPED"
  | 3, 3 => "DISPOSE"
  | 3, 4 => "DISPOSED"
  | cls, kind => Nat.repr cls ++ "." ++ Nat.repr kind

/-- The word of a block (00, Block overview). -/
def blockWord : Block → String
  | .dispatch => "dispatch_unit"
  | .custody => "custody_unit"
  | .family => "family_hold_list"
  | .release => "release_unit"
  | .evaluator => "hold_evaluator"

/-- The word of a program slot state (R87). -/
def progStateWord : ProgState → String
  | .empty => "EMPTY"
  | .loading => "LOADING"
  | .resident => "RESIDENT"
  | .invalid => "INVALID"

/-- The word of a thermal phase (R91). -/
def thermalWord : ThermalPhase → String
  | .unknown => "UNKNOWN"
  | .ramping => "RAMPING"
  | .atSetpoint => "AT_SETPOINT"
  | .soaking => "SOAKING"
  | .ready => "READY"

/-- The word of an engine state (R95). -/
def engineWord : EngineState → String
  | .idle => "IDLE"
  | .running => "RUNNING"
  | .pausing => "PAUSING"
  | .paused => "PAUSED"
  | .faulted => "FAULTED"

/-- The word of a fault cause (R106). -/
def causeWord : FaultCause → String
  | .loop => "LOOP"
  | .programMissing => "PROGRAM_MISSING"
  | .testerFault => "TESTER_FAULT"
  | .handlerFault => "HANDLER_FAULT"
  | .timeout => "TIMEOUT"
  | .loadFailed => "LOAD_FAILED"
  | .checkFail => "CHECK_FAIL"
  | .kitChanged => "KIT_CHANGED"
  | .tempLost => "TEMP_LOST"

/-- The word of a HELD reason (R114). -/
def siteReasonWord : SiteReason → String
  | .spread => "SPREAD"
  | .run => "RUN"
  | .operator => "OPERATOR"

/-- The word of a CONFIG_FAULT cause (R190). -/
def configCauseWord : ConfigCause → String
  | .noImage => "NO_IMAGE"
  | .header => "HEADER"
  | .sum => "SUM"
  | .goodBins => "GOOD_BINS"
  | .stepLink => "STEP_LINK"
  | .straps => "STRAPS"

/-- The word of an entry state (R156). -/
def entryStateWord : EntryState → String
  | .confirmed => "CONFIRMED"
  | .unconfirmed => "UNCONFIRMED"
  | .stale => "STALE"

/-- The word of an OBJECT reason (11.1). -/
def objectReasonWord : ObjectReason → String
  | .duplicate => "DUPLICATE"
  | .family => "FAMILY"

/-! ## Fields -/

/-- A field with a number. -/
def fnum (name : String) (n : Nat) : List Field := [⟨name, .num n⟩]
/-- A field with a signed number. -/
def fint (name : String) (n : Int) : List Field := [⟨name, .int n⟩]
/-- A field with a word. -/
def fword (name w : String) : List Field := [⟨name, .word w⟩]
/-- A field with a list of numbers. -/
def fnums (name : String) (l : List Nat) : List Field := [⟨name, .nums l⟩]
/-- A field with a list of signed numbers. -/
def fints (name : String) (l : List Int) : List Field := [⟨name, .ints l⟩]
/-- A flag or a mark. -/
def fflag (name : String) (v : Bool) : List Field := fword name (flagWord v)
/-- A field that is left out when absent (R186). -/
def fopt {α : Type} (o : Option α) (f : α → List Field) : List Field :=
  match o with
  | some x => f x
  | none => []

/-- Seconds left to a time, rounded up. -/
def secondsLeft (now t : Nat) : Nat := ceilDiv (t - now) 1000
/-- Seconds since a time, rounded down. -/
def secondsSince (now t : Nat) : Nat := (now - t) / 1000

/-! ## STATUS LOT (R16) -/

/-- A step number, or END. -/
def stepWord (name : String) (o : Option Nat) : List Field :=
  match o with
  | some n => fnum name n
  | none => fword name "END"

/-- The fields of a record before its holds. -/
def lotFields (c : Ctx) (r : LotRecord) : List Field :=
  fnum "lot_id" r.lot ++ fword "state" (lotStateWord r.state) ++ fnum "product_code" r.product ++ fnum "family_id" r.family ++
  fnum "priority_class" r.priority ++ fnum "entry_qty" r.entryQty ++ fnum "route_length" r.route.length ++
  (match r.nextInsertion with | some n => fnum "next_insertion" n | none => fword "next_insertion" "DONE") ++
  fopt r.peer (fnum "peer_station") ++ fopt r.deadline (fun d => fnum "deadline" (secondsLeft c.now d.time)) ++
  (if r.state == .offered then
    match r.offer.bind (·.best) with
    | some (cost, st) => fnums "best_bid" [cost, st]
    | none => fword "best_bid" "none"
  else []) ++
  fnum "offer_attempts" r.attempts ++ fflag "stranded_flag" r.stranded

/-- The fields of a hold; the bins of a BIN hold in the order in which they crossed (DESIGN CHOICE, log 72: R13 has a set, and
neither R16 nor R186 orders it). -/
def holdFields (c : Ctx) (h : Hold) : List Field :=
  fword "kind" (holdKindWord h.kind) ++ fnum "insertion_no" h.insertionNo ++ fnum "raised_time" (secondsSince c.now h.raised) ++
  fword "scope" (scopeWord h.scope) ++ fopt h.trigger (fun t => fints "trigger_values" [t.1, t.2]) ++
  (if h.bins.isEmpty then [] else fnums "bins" h.bins)

/-- The fields of a summary (R11). -/
def summaryFields (m : Summary) : List Field :=
  fnum "insertion_no" m.insertionNo ++ fnum "station" m.station ++ fnum "declared_in_qty" m.declared ++ fint "adj" m.adj ++
  fnum "good" m.good ++ fnum "rejects" m.rejects ++ fnum "void_final" m.voidFinal ++ fnum "scrapped" m.scrapped

/-- The fields of an insertion account. -/
def accountFields (goodBins : List Nat) (a : Account) : List Field :=
  fword "phase" (phaseWord a.phase) ++ fnum "declared_in_qty" a.declared ++ fint "adj" a.adj ++ fnum "placed_main" a.placedMain ++
  fnum "tested" a.tested ++ fnum "good" (a.good goodBins) ++ fnum "void_open" a.voidOpen ++ fnum "void_final" a.voidFinal ++
  fnum "scrapped" a.scrapped

/-- STATUS LOT of one lot (R16): the record's values in one line, each hold, the disposed hold count, each summary and the account
in lines of their own (DESIGN CHOICE, log 70). -/
def statusOneLot (c : Ctx) (r : LotRecord) : List (List Field) :=
  [lotFields c r] ++ (holdKinds.filterMap r.hold?).map (holdFields c) ++ [fnum "disposed_hold_count" r.disposedHolds] ++
  r.summaries.map summaryFields ++ (match r.account with | some a => [accountFields (c.recipe r.product).goodBins a] | none => [])

/-- STATUS LOT of all lots (R16): the queue and each of the two sums in a line of its own (DESIGN CHOICE, log 70). -/
def statusLots (b : Blocks) : List (List Field) :=
  b.lots.map (fun r => fnum "lot_id" r.lot ++ fword "state" (lotStateWord r.state)) ++
  [fnums "cell_queue" (b.queue.map (·.lot)), fnum "records_plus_bid_records" b.places, fnum "commitments" b.commitments]

/-! ## STATUS CELL (R56, R110, R133) -/

/-- FEED (R118). -/
def Blocks.feedLevel (c : Ctx) (b : Blocks) : Bool :=
  c.run == .running && !c.pins.resetHeld && !b.td.latch && b.lots.any (fun r => r.state == .inTest && !r.held)

/-- The configuration state, with its cause in CONFIG_FAULT, the station number and the count of clamped values, in one line
(DESIGN CHOICE, log 70). A part that is not in CONFIG_FAULT shows the word RUNNING (DESIGN CHOICE, log 92: R186 names the word
CONFIG_FAULT alone). -/
def configFields (c : Ctx) : List Field :=
  (match c.run with
    | .configFault cause => fword "configuration_state" "CONFIG_FAULT" ++ fword "cause" (configCauseWord cause) ++ fnum "straps" c.own
    | _ => fword "configuration_state" "RUNNING") ++
  fnum "station_number" c.own ++ fnum "clamped_count" c.cfg.clamped

/-- The word of a tester command. -/
def commandFields (cmd : TesterCmd) (o : Origin) : List Field :=
  (match cmd with
    | .load s p => fword "command" "LOAD" ++ fnum "slot" s ++ fnum "program_id" p
    | .evict s => fword "command" "EVICT" ++ fnum "slot" s
    | .select s => fword "command" "SELECT" ++ fnum "slot" s
    | .check => fword "command" "CHECK") ++
  fword "origin" (match o with | .step => "step" | .chainEnd => "chain_end" | .operator => "operator")

/-- The walk's fields (R110). -/
def walkFields (c : Ctx) (u : SetupUnit) : List Field :=
  match u.walk with
  | none => []
  | some w =>
    fnum "lot_id" w.lot ++ stepWord "current_step" w.current ++
    fopt w.current (fun n => stepWord "next_step" (c.stepRecord n).next) ++ fnum "walk_count" w.count ++
    fopt w.deadline (fun t => fnum "remaining_time" (secondsLeft c.now t)) ++
    fopt w.deferred (fun x => fword "deferred_cause" (causeWord x)) ++
    (if u.engine == .faulted then fopt w.fault (fun x => fword "fault_cause" (causeWord x.1) ++ stepWord "faulted_step" x.2) else [])

/-- The setup (R110). -/
def setupItems (c : Ctx) (u : SetupUnit) : List (List Field) :=
  [fword "engine_state" (engineWord u.engine) ++ walkFields c u] ++
  u.slots.zipIdx.map (fun p => fnum "slot" (p.2 + 1) ++ fword "state" (progStateWord p.1.state) ++
    fopt p.1.program (fnum "program_id") ++ fopt p.1.correlated (fnum "last_correlation_time")) ++
  [fnums "lru_order" u.lru ++ fopt u.active (fnum "active_slot")] ++
  (match u.inFlight with | some (cmd, o) => [commandFields cmd o] | none => []) ++
  [fopt u.thermal.band (fun x => fword "band" (bandWord x)) ++ fword "phase" (thermalWord u.thermal.phase) ++
    fnum "soak_remaining" (ceilDiv u.thermal.soak 1000), fnum "kit_taken" u.kitTaken]

/-- One site of the site map. -/
def siteFields (u : TdUnit) (s : Nat) : List Field :=
  fnum "site" s ++ (match u.site s with
    | .fittedOff => fword "state" "FITTED_OFF"
    | .enabled => fword "state" "ENABLED"
    | .held reason => fword "state" "HELD" ++ fword "reason" (siteReasonWord reason))

/-- The touchdown in flight (R133); the busy time is a field of TESTING alone (R120) and is left out of the other stages (R186).
The void sites are listed by their numbers alone (DESIGN CHOICE, log 76: R120 keeps with each the count it went to, R133 names the
void sites). -/
def touchdownFields (c : Ctx) (t : Touchdown) : List Field :=
  fword "stage" (match t.stage with | .parked => "PARKED" | .testing => "TESTING" | .sorting => "SORTING") ++
  fword "kind" (match t.kind with | .counted => "COUNTED" | .orphan => "ORPHAN") ++
  fnums "active_sites" t.active ++ fnums "void_sites" t.voidSiteNumbers ++ fopt t.sequence (fnum "sequence") ++
  fopt t.deadline (fun d => fnum "deadline" (d - c.now)) ++ (if t.stage == .testing then fnum "busy_time" t.busy else []) ++
  fflag "lot_empty_mark" t.lotEmptyMark

/-- The touchdown controller (R133). -/
def tdItems (c : Ctx) (b : Blocks) : List (List Field) :=
  allSites.map (siteFields b.td) ++
  [fnum "enabled_sites" b.td.enabledCount ++ fnum "minimum_sites" c.cfg.minSites,
   fflag "inhibit_latch" b.td.latch ++ fflag "feed" (b.feedLevel c) ++ fflag "stop_mark" b.td.stopMark] ++
  (match b.td.touchdown with | some t => [touchdownFields c t] | none => []) ++
  [fnum "timer_ring_count" b.td.timerRing.length ++
    (if 4 ≤ b.td.timerRing.length then fnum "timer_ring_mean" b.td.ringMean else [])] ++
  (match b.testLot? with
    | some r => [fnum "lot_id" r.lot ++ fopt r.account (fun a => fword "phase" (phaseWord a.phase)) ++
        fflag "void_pass_running" r.voidPassRuns]
    | none => [])

/-- STATUS CELL (R56, R110, R133). Which single values share one `=` line, here and in the other subjects, is the model's choice
(DESIGN CHOICE, log 70: R186 gives a line to each record or group of single values and names no group). The bid records stand in the
order in which they were made, oldest first (DESIGN CHOICE, log 88: R56 and R186 order them not). -/
def statusCell (c : Ctx) (b : Blocks) : List (List Field) :=
  [configFields c] ++
  b.bids.map (fun r => fnum "lot_id" r.lot ++ fnum "offerer" r.offerer ++ fnum "cost" r.cost ++
    fword "status" (if r.sentAt.isSome then "SENT" else "PENDING")) ++
  setupItems c b.setup ++ tdItems c b ++ [fnum "notice_overflow_count" b.op.overflowCount]

/-! ## STATUS LINK (R39) -/

/-- One transmit slot. -/
def slotFields (x : Option SlotEntry × Nat) : List Field :=
  fnum "slot" (x.2 + 1) ++ (match x.1 with
    | none => fword "state" "EMPTY"
    | some e =>
      fword "state" (if e.onWire then "ON_WIRE" else "PENDING") ++
      fword "kind" (frameKindWord (frameClass e.frame.data) (frameKind e.frame.data)) ++ fnum "key" (identKey e.identifier) ++
      fnum "identifier" e.identifier ++ fnum "placement_number" e.placement ++ fflag "cancel_mark" e.cancelMark)

/-- The link state STATUS LINK shows: WITHDRAWN in CONFIG_FAULT (R39). -/
def shownLinkState (c : Ctx) (l : LinkCtl) : LinkState := match c.run with | .configFault _ => .withdrawn | _ => l.state

/-- STATUS LINK (R39). The rejoin accumulator is shown, as 0, in CONFIG_FAULT too, where the link state only shows as WITHDRAWN
(DESIGN CHOICE, log 66: R39 shows it while WITHDRAWN). The single values are grouped in `=` lines as log 70 says. -/
def statusLink (c : Ctx) (b : Blocks) : List (List Field) :=
  [fnum "station_number" c.own ++ fnum "bit_rate" c.cfg.bitRate,
   fword "link_state" (linkStateWord (shownLinkState c b.link)) ++ fnum "tx_err" b.link.txErr ++ fnum "rx_err" b.link.rxErr] ++
  b.link.slots.zipIdx.map slotFields ++
  b.link.requests.map (fun q => fword "owner" (blockWord q.1) ++ fnum "class" q.2) ++
  (if shownLinkState c b.link == .withdrawn then [fnum "rejoin_accumulator" (b.link.rejoinAcc / 1000)] else []) ++
  [fflag "station_clash_mark" b.link.clash] ++
  c.cfg.filters.map (fun e => fnum "value" e.value.toNat ++ fnum "mask" e.mask.toNat ++ fflag "enabled" e.enabled)

/-! ## STATUS FAMILY (R171), STATUS RELEASED (R182) -/

/-- STATUS FAMILY. -/
def statusFamily (c : Ctx) (b : Blocks) : List (List Field) :=
  b.family.entries.map (fun e => fnum "family_id" e.family ++ fnum "lot_id" e.lot ++ fnum "raiser_station" e.raiser ++
    fflag "local_flag" e.isLocal ++ fword "state" (entryStateWord e.state) ++ fnum "time" (secondsSince c.now e.time) ++
    (if e.isLocal then fflag "hold_due" e.holdDue else [])) ++
  [fflag "saturated" b.family.saturated ++ fflag "unsettled" b.family.unsettled ++ fflag "refusal_mark" b.family.refusalMark] ++
  b.family.clearDue.map (fun k => fnum "family_id" k.1 ++ fnum "lot_id" k.2) ++
  [fflag "rollcall_due" b.family.rollcallDue ++ fopt b.family.window (fun t => fnum "window" (secondsLeft c.now t)) ++
     fflag "cursor_walking" b.family.cursor.isSome ++ fnum "free_places" (Config.familyCapacity - b.family.entries.length)]

/-- STATUS RELEASED (R182). The time left to a release retry time is given in whole seconds, rounded up, as the release
window's is (DESIGN CHOICE, log 58: R182 states no unit for it). -/
def statusReleased (c : Ctx) (b : Blocks) : List (List Field) :=
  b.release.ring.map (fun e => fnum "lot_id" e.lot ++ fnum "family_id" e.family ++ fnum "final_good" e.good ++
    fnum "release_time" (secondsSince c.now e.time) ++ fflag "shipped_due" e.due) ++
  (b.lots.filter (fun r => r.state == .releasing)).map (fun r => fnum "lot_id" r.lot ++
    fopt r.intent (fun x => fword "intent_frame" (sendWord x)) ++
    fopt r.deadline (fun d => fnum "window_time" (secondsLeft c.now d.time))) ++
  (b.lots.filter (fun r => r.state == .finished && r.releaseRetry.isSome)).map (fun r => fnum "lot_id" r.lot ++
    fopt r.releaseRetry (fun t => fnum "release_retry_time" (secondsLeft c.now t))) ++
  b.release.objections.map (fun o => fnum "lot_id" o.lot ++ fword "reason" (objectReasonWord o.reason) ++
    fnum "station_objected_to" o.station)

/-! ## The request (R186) -/

/-- The reply of STATUS. -/
def statusReply (subject : Option StatusSubject) (lot : Option Nat) (c : Ctx) (b : Blocks) : Reply :=
  match subject, lot with
  | some .lot, some l =>
    if !lotIdOk l then .no .badValue
    else match b.lot? l with
      | some r => .status .lot (statusOneLot c r)
      | none => .no .unknownLot
  | some .lot, none => .status .lot (statusLots b)
  | some .cell, none => .status .cell (statusCell c b)
  | some .link, none => .status .link (statusLink c b)
  | some .family, none => .status .family (statusFamily c b)
  | some .released, none => .status .released (statusReleased c b)
  | _, _ => .no .badValue

/-- STATUS (R186). -/
def statusRule (subject : Option StatusSubject) (lot : Option Nat) (c : Ctx) (b : Blocks) : Blocks :=
  b.reply (statusReply subject lot c b)

end Sys2Proof.Machine
end

