-- ==== Sys2Proof/Machine/OperatorLine.lean ====
section
/-! DEFINITION. The operator line (10.1 to 10.3): parsing and waiting, outgoing lines and their text, and one meaning for
each request. -/

namespace Sys2Proof.Machine

/-! ## Text (R185 to R187) -/

/-- The code of a NO reply. -/
def replyCodeWord : ReplyCode → String
  | .ok => "OK"
  | .busy => "BUSY"
  | .full => "FULL"
  | .duplicate => "DUPLICATE"
  | .unknownLot => "UNKNOWN_LOT"
  | .unknownProduct => "UNKNOWN_PRODUCT"
  | .badValue => "BAD_VALUE"
  | .wrongState => "WRONG_STATE"
  | .moving => "MOVING"
  | .notOpen => "NOT_OPEN"
  | .notDisposable => "NOT_DISPOSABLE"
  | .stillShort => "STILL_SHORT"
  | .notActive => "NOT_ACTIVE"
  | .notStale => "NOT_STALE"
  | .slotNotEmpty => "SLOT_NOT_EMPTY"
  | .linkDown => "LINK_DOWN"
  | .configFault => "CONFIG_FAULT"

/-- A signed number in decimal. -/
def intText (n : Int) : String := if n < 0 then "-" ++ Nat.repr n.natAbs else Nat.repr n.natAbs

/-- Values joined by commas. -/
def commas : List String → String
  | [] => ""
  | [w] => w
  | w :: rest => w ++ "," ++ commas rest

/-- The value of a field. -/
def valueText : FieldValue → String
  | .num n => Nat.repr n
  | .int n => intText n
  | .word w => w
  | .nums l => commas (l.map Nat.repr)
  | .ints l => commas (l.map intText)

/-- name=value for each field, one space before each, also after "=" and after a notice's kind (DESIGN CHOICE, log 59: the
manual does not say what separates the fields of a line). -/
def fieldsText (l : List Field) : String := l.foldl (fun acc f => acc ++ " " ++ f.name ++ "=" ++ valueText f.value) ""

/-- The word of a STATUS subject. -/
def subjectWord : StatusSubject → String
  | .lot => "LOT"
  | .cell => "CELL"
  | .link => "LINK"
  | .family => "FAMILY"
  | .released => "RELEASED"

/-- The lines of a reply (R185, R186). -/
def replyText : Reply → List String
  | .ok => ["OK"]
  | .okLot lot => ["OK " ++ Nat.repr lot]
  | .no code => ["NO " ++ replyCodeWord code]
  | .status subject items =>
    ("OK STATUS " ++ subjectWord subject ++ " " ++ Nat.repr items.length) :: items.map (fun l => "=" ++ fieldsText l)

/-- The word of a disposition. -/
def dispositionWord : Disposition → String
  | .resume => "RESUME"
  | .acceptCount => "ACCEPT_COUNT"
  | .scrap => "SCRAP"

/-- The kind and fields of a notice (R187). The cause of a RELEASE_ABANDONED that a hold brought about is written as the kind
of that hold (DESIGN CHOICE, log 57: R174 gives no word for it). -/
def noticeParts : Notice → String × List Field
  | .started st len recipes clamped => ("STARTED", fnum "station_number" st ++ fnum "image_length" len ++
      fnum "recipe_count" recipes ++ fnum "clamped_count" clamped)
  | .restarted byPin st => ("RESTARTED", fword "cause" (if byPin then "PIN" else "REQUEST") ++ fnum "station_number" st)
  | .configFault cause => ("CONFIG_FAULT", fword "cause" (configCauseWord cause))
  | .stationClash cls kind => ("STATION_CLASH", fword "kind" (frameKindWord cls kind))
  | .linkState st tx rx => ("LINK_STATE", fword "link_state" (linkStateWord st) ++ fnum "tx_err" tx ++ fnum "rx_err" rx)
  | .stranded lot n => ("STRANDED", fnum "lot" lot ++ fnum "offer_attempts" n)
  | .arrivalExpected lot st product insertion qty => ("ARRIVAL_EXPECTED", fnum "lot" lot ++ fnum "offerer" st ++
      fnum "product" product ++ fnum "next_insertion" insertion ++ fnum "in_qty" qty)
  | .lotOut lot st => ("LOT_OUT", fnum "lot" lot ++ fnum "station" st)
  | .lotTaken lot st => ("LOT_TAKEN", fnum "lot" lot ++ fnum "station" st)
  | .lotDeclined lot st => ("LOT_DECLINED", fnum "lot" lot ++ fnum "station" st)
  | .arrivalCancelled lot reason => ("ARRIVAL_CANCELLED", fnum "lot" lot ++
      fword "reason" (match reason with | .timeout => "TIMEOUT" | .recalled => "RECALLED" | .reoffered => "REOFFERED"))
  | .kitChange lot target taken => ("KIT_CHANGE", fnum "lot" lot ++ fnum "target_kit" target ++ fnum "kit_taken" taken)
  | .operatorWait lot step => ("OPERATOR_WAIT", fnum "lot" lot ++ fnum "step" step)
  | .setupFault lot cause step => ("SETUP_FAULT", fnum "lot" lot ++ fword "cause" (causeWord cause) ++ stepWord "step" step)
  | .slot n st program => ("SLOT", fnum "slot" n ++ fword "state" (progStateWord st) ++ fopt program (fnum "program_id"))
  | .portError port what => ("PORT_ERROR", fword "port" (match port with | .handler => "handler" | .tester => "tester") ++
      fword "error" (match what with | .tdReady => "TD_READY" | .format => "FORMAT"))
  | .orphanUnits sites => ("ORPHAN_UNITS", fnums "sites" sites)
  | .tdTimeout => ("TD_TIMEOUT", [])
  | .kitChanged old new => ("KIT_CHANGED", fnum "old_kit" old ++ fnum "new_kit" new)
  | .siteEnabled s => ("SITE_ENABLED", fnum "site" s)
  | .siteHeld lot s reason values => ("SITE_HELD", fopt lot (fnum "lot") ++ fnum "site" s ++
      fword "reason" (siteReasonWord reason) ++ (if values.isEmpty then [] else fnums "values" values))
  | .stopped => ("STOPPED", [])
  | .voidReload lot n => ("VOID_RELOAD", fnum "lot" lot ++ fnum "void_open" n)
  | .insertionClosed lot n m => ("INSERTION_CLOSED", fnum "lot" lot ++ fnum "insertion" n ++ summaryFields m)
  | .emptyLot lot => ("EMPTY_LOT", fnum "lot" lot)
  | .holdRaised lot k scope n trigger => ("HOLD_RAISED", fnum "lot" lot ++ fword "kind" (holdKindWord k) ++
      fword "scope" (scopeWord scope) ++ fnum "insertion_no" n ++ fopt trigger (fun t => fints "trigger_values" [t.1, t.2]))
  | .holdBinAdded lot bin n => ("HOLD_RAISED", fnum "lot" lot ++ fword "kind" "BIN" ++ fnum "bin" bin ++ fnum "count" n)
  | .holdDisposed lot k d by_ => ("HOLD_DISPOSED", fnum "lot" lot ++ fword "kind" (holdKindWord k) ++
      (match by_, d with
        | .auto, _ => fword "disposition" "AUTO"
        | .terminal, some d => fword "disposition" (dispositionWord d) ++ fword "requester" "local"
        | .station n, some d => fword "disposition" (dispositionWord d) ++ fnum "requester" n
        | _, none => []))
  | .scrapped lot k n => ("SCRAPPED", fnum "lot" lot ++ fword "kind" (holdKindWord k) ++
      (match n with | some i => fnum "next_insertion" i | none => fword "next_insertion" "DONE"))
  | .disposeResult lot k d result => ("DISPOSE_RESULT", fnum "lot" lot ++ fword "kind" (holdKindWord k) ++
      fword "disposition" (dispositionWord d) ++
      fword "result" (match result with | .code code => replyCodeWord code | .noAnswer => "NO_ANSWER" | .notSent => "NOT_SENT"))
  | .clearLost family lot => ("CLEAR_LOST", fnum "family" family ++ fnum "lot" lot)
  | .escape lot family good time entryLot raiser => ("ESCAPE", fnum "lot" lot ++ fnum "family" family ++ fnum "final_good" good ++
      fnum "release_time" time ++ fnum "entry_lot" entryLot ++ fnum "raiser" raiser)
  | .staleFamily family lot raiser => ("STALE_FAMILY", fnum "family" family ++ fnum "lot" lot ++ fnum "raiser" raiser)
  | .releaseAbandoned lot cause => ("RELEASE_ABANDONED", fnum "lot" lot ++ (match cause with
      | .objection st reason => fword "cause" "OBJECTION" ++ fnum "station" st ++ fword "reason" (objectReasonWord reason)
      | .hold k => fword "cause" (holdKindWord k)
      | .notSent => fword "cause" "NOT_SENT"
      | .withdrawn => fword "cause" "WITHDRAWN"))
  | .objectionLost lot reason st => ("OBJECTION_LOST", fnum "lot" lot ++ fword "reason" (objectReasonWord reason) ++ fnum "station" st)
  | .lateObjection lot st reason => ("LATE_OBJECTION", fnum "lot" lot ++ fnum "station" st ++ fword "reason" (objectReasonWord reason))
  | .shipped lot family good qty n => ("SHIPPED", fnum "lot" lot ++ fnum "family" family ++ fnum "final_good" good ++
      fnum "entry_qty" qty ++ fnum "route_length" n)
  | .shippedElsewhere lot st => ("SHIPPED_ELSEWHERE", fnum "lot" lot ++ fnum "station" st)

/-- The lines an outgoing line is sent as, without the carriage return and line feed that end each (R183, R185, R187). -/
def lineText : OutLine → List String
  | .reply r => replyText r
  | .notice n overflow =>
    let p := noticeParts n
    [(match overflow with | some k => "!+" ++ Nat.repr k ++ " " | none => "!") ++ p.1 ++ fieldsText p.2]

/-- Lines with a carriage return and a line feed between them. -/
def joinLines : List String → String
  | [] => ""
  | [w] => w
  | w :: rest => w ++ "\r\n" ++ joinLines rest

/-- The characters that have gone out for a line: all of it, or as many as a warm reset let out; either way a carriage
return and a line feed end it (R183, R187). -/
def SentLine.text : SentLine → String
  | .whole l => joinLines (lineText l) ++ "\r\n"
  | .cut l n => String.ofList ((joinLines (lineText l)).toList.take n) ++ "\r\n"

/-! ## Gathering (R183) -/

/-- A character at the receiver, and the request its carriage return completes (R183). A line of more than 80 characters is a
request, answered BAD_VALUE, also where all of them are spaces (DESIGN CHOICE, log 101: R183 discards a line of only spaces). -/
def OperatorLine.gather (o : OperatorLine) (ch : Char) : OperatorLine × Option Instr :=
  if o.discarding then ({ o with discarding := ch != '\r' }, none)
  else if ch == '\r' then
    ({ o with gathered := [], tooLong := false },
      if o.tooLong then some (.malformedRequest .tooLong) else lineCommand o.gathered)
  else if ch.toNat < 32 || o.tooLong then (o, none)
  else if o.gathered.length < Config.lineCapacity then ({ o with gathered := o.gathered ++ [ch] }, none)
  else ({ o with tooLong := true }, none)

/-- A character arrives on the operator line. While the image is loaded and while RESET_N is held, what stands gathered and
every character up to the next carriage return are discarded (R183). A completed request joins the commands that wait. No
command of the table is a character (log 30). -/
def State.receiveChar (s : State) (ch : Char) : State :=
  if s.run == .off then s
  else if s.run == .loading || s.pins.resetHeld then
    { s with blocks := { s.blocks with op := { s.blocks.op with discarding := ch != '\r' } } }
  else
    let x := s.blocks.op.gather ch
    { s with blocks := { s.blocks with op := x.1 }, pending := s.pending ++ x.2.toList }

/-! ## Parsing (R183, R184) -/

/-- The rule of a parsed request while the part runs. -/
def requestRule (cmd : Instr) (c : Ctx) (b : Blocks) : Blocks :=
  match cmd with
  | .enter lot product qty family priority => enterRule lot product qty family priority c b
  | .arrive lot => arriveRule lot c b
  | .recall lot => recallRule lot c b
  | .reoffer lot => reofferRule lot c b
  | .pauseWalk => pauseRule c b
  | .continueWalk => continueRule c b
  | .abortSetup => abortRule c b
  | .preload slot program => preloadRule slot program c b
  | .evict slot => evictRule slot c b
  | .startCell => startRule c b
  | .stopCell => stopRule c b
  | .abortTd => abortTdRule c b
  | .siteEnable site => siteEnableRule site c b
  | .siteDisable site => siteDisableRule site c b
  | .holdLot lot => holdRule lot c b
  | .dispose lot kind disposition => disposeRule lot kind disposition c b
  | .purge family lot => purgeRule family lot c b
  | .status subject lot => statusRule subject lot c b
  | .restart => restartRule c b
  | .malformedRequest _ => b.no .badValue
  | _ => b

/-- The reply of a parsed line in CONFIG_FAULT: STATUS is answered, a line that names no request is refused
BAD_VALUE, every other request CONFIG_FAULT (R184, R190). A line marked too long is refused BAD_VALUE here too (DESIGN CHOICE,
log 100: R183 has it so answered, R184 and R190 answer every request but STATUS CONFIG_FAULT). -/
def faultRule (cmd : Instr) (c : Ctx) (b : Blocks) : Blocks :=
  match cmd with
  | .status subject lot => statusRule subject lot c b
  | .malformedRequest .requestForm => b.no .configFault
  | .malformedRequest _ => b.no .badValue
  | _ => b.no .configFault

/-- What follows a request's reply: an accepted request is followed by what follows every change, a refused one
and a STATUS have changed nothing (R185, R186). -/
def Blocks.afterReply (c : Ctx) (b : Blocks) : Blocks :=
  match b.op.replies.getLast? with
  | some .ok | some (.okLot _) => b.settle c
  | _ => b

/-- What parsing a line does (R184). -/
def parsedRule (cmd : Instr) (c : Ctx) (b : Blocks) : Blocks :=
  match c.run with
  | .running => (requestRule cmd c b).afterReply c
  | _ => faultRule cmd c b

/-- NO BUSY is owed for a line discarded behind the waiting one (R183). -/
def Blocks.oweBusy (b : Blocks) : Blocks := { b with op := { b.op with busyBehind := b.op.busyBehind + 1 } }

/-- A completed line: parsed at once when no reply is being sent, else it waits; discarded behind a waiting line,
and after a RESTART (R183, R192). -/
def lineRule (cmd : Instr) (c : Ctx) (b : Blocks) : Blocks :=
  if b.op.restarting then b
  else if b.op.replying then
    (if b.op.waiting.isSome then b.oweBusy else { b with op := { b.op with waiting := some cmd } })
  else parsedRule cmd c b

/-- The line being sent has gone out; of the replies that a RESTART waits for, one fewer is left (R183, R192). -/
def Blocks.lineSent (b : Blocks) : Blocks :=
  { b with op := { b.op with
      sending := none
      sent := b.op.sent ++ (b.op.sending.map SentLine.whole).toList
      beforeReset := if b.op.replying then b.op.beforeReset - 1 else b.op.beforeReset } }

/-- After a reply the waiting line is parsed, its reply is followed by the NO BUSY replies owed behind it (R183). -/
def Blocks.parseWaiting (c : Ctx) (b : Blocks) : Blocks :=
  match b.op.waiting with
  | none => b
  | some cmd =>
    let owed := b.op.busyBehind
    let b := { b with op := { b.op with waiting := none, busyBehind := 0 } }
    let b := parsedRule cmd c b
    { b with op := { b.op with replies := b.op.replies ++ List.replicate owed (.no .busy) } }

/-- OUTGOING_LINE_SENT at the blocks; no line is parsed between a RESTART and its warm reset (R183, R192). -/
def Blocks.outgoingSent (c : Ctx) (b : Blocks) : Blocks :=
  if b.op.replying && !b.op.restarting then b.lineSent.parseWaiting c else b.lineSent

/-- The operator line takes and sends lines: after the start, in CONFIG_FAULT too, and not while RESET_N is held
(R183, R190). -/
def State.lineOpen (s : State) : Bool :=
  (match s.run with | .running | .configFault _ => true | _ => false) && !s.pins.resetHeld

/-- A rule of the operator line, then the next line begins if the line is free (R183). -/
def State.onLine (s : State) (rule : Ctx → Blocks → Blocks) : State :=
  if s.lineOpen then { s with blocks := (rule s.ctx s.blocks).beginLine } else s

/-! ## The meanings -/

/-- ENTER (R14). -/
def execEnter (lot product qty family priority : Nat) (s : State) : Host.Outcome State Fault Refusal :=
  .next (s.onLine (lineRule (.enter lot product qty family priority)))

/-- ARRIVE (R76). -/
def execArrive (lot : Nat) (s : State) : Host.Outcome State Fault Refusal := .next (s.onLine (lineRule (.arrive lot)))

/-- RECALL (R80). -/
def execRecall (lot : Nat) (s : State) : Host.Outcome State Fault Refusal := .next (s.onLine (lineRule (.recall lot)))

/-- REOFFER (R65). -/
def execReoffer (lot : Nat) (s : State) : Host.Outcome State Fault Refusal := .next (s.onLine (lineRule (.reoffer lot)))

/-- PAUSE (R104). -/
def execPauseWalk (s : State) : Host.Outcome State Fault Refusal := .next (s.onLine (lineRule .pauseWalk))

/-- CONTINUE (R104). -/
def execContinueWalk (s : State) : Host.Outcome State Fault Refusal := .next (s.onLine (lineRule .continueWalk))

/-- ABORT (R105). -/
def execAbortSetup (s : State) : Host.Outcome State Fault Refusal := .next (s.onLine (lineRule .abortSetup))

/-- PRELOAD (R108). -/
def execPreload (slot program : Nat) (s : State) : Host.Outcome State Fault Refusal :=
  .next (s.onLine (lineRule (.preload slot program)))

/-- EVICT (R109). -/
def execEvict (slot : Nat) (s : State) : Host.Outcome State Fault Refusal := .next (s.onLine (lineRule (.evict slot)))

/-- START (R119). -/
def execStartCell (s : State) : Host.Outcome State Fault Refusal := .next (s.onLine (lineRule .startCell))

/-- STOP (R119). -/
def execStopCell (s : State) : Host.Outcome State Fault Refusal := .next (s.onLine (lineRule .stopCell))

/-- ABORT_TD (R126). -/
def execAbortTd (s : State) : Host.Outcome State Fault Refusal := .next (s.onLine (lineRule .abortTd))

/-- SITE_ENABLE (R115). -/
def execSiteEnable (site : Nat) (s : State) : Host.Outcome State Fault Refusal := .next (s.onLine (lineRule (.siteEnable site)))

/-- SITE_DISABLE (R115). -/
def execSiteDisable (site : Nat) (s : State) : Host.Outcome State Fault Refusal := .next (s.onLine (lineRule (.siteDisable site)))

/-- HOLD (R144). -/
def execHoldLot (lot : Nat) (s : State) : Host.Outcome State Fault Refusal := .next (s.onLine (lineRule (.holdLot lot)))

/-- DISPOSE (R145, R152). -/
def execDispose (lot : Nat) (kind : Option HoldKind) (disposition : Option Disposition) (s : State) :
    Host.Outcome State Fault Refusal := .next (s.onLine (lineRule (.dispose lot kind disposition)))

/-- PURGE (R168). -/
def execPurge (family lot : Nat) (s : State) : Host.Outcome State Fault Refusal := .next (s.onLine (lineRule (.purge family lot)))

/-- STATUS (R186). -/
def execStatus (subject : Option StatusSubject) (lot : Option Nat) (s : State) : Host.Outcome State Fault Refusal :=
  .next (s.onLine (lineRule (.status subject lot)))

/-- RESTART (R192). -/
def execRestart (s : State) : Host.Outcome State Fault Refusal := .next (s.onLine (lineRule .restart))

/-- MALFORMED_REQUEST (R183, R184). -/
def execMalformedRequest (why : Malformed) (s : State) : Host.Outcome State Fault Refusal :=
  .next (s.onLine (lineRule (.malformedRequest why)))

/-- LINE_DISCARDED_BUSY: a line completed while another waits; NO BUSY is owed behind the waiting line's reply (R183). -/
def execLineDiscardedBusy (s : State) : Host.Outcome State Fault Refusal :=
  .next (s.onLine (fun _ b => if b.op.waiting.isSome then b.oweBusy else b))

/-- OUTGOING_LINE_SENT (R183, R187). -/
def execOutgoingLineSent (s : State) : Host.Outcome State Fault Refusal := .next (s.onLine (fun c b => b.outgoingSent c))

end Sys2Proof.Machine
end

