-- ==== Sys2Proof/Machine/Start.lean ====
section
/-! DEFINITION. The start-up loader (R188, R189, R195), power-on (R191), CONFIG_FAULT (R190) and the warm reset (R18,
R41, R67, R86, R112, R135, R155, R170, R181, R187, R192). -/

namespace Sys2Proof.Machine

/-! ## Reading the image (R195, 11.3) -/

/-- The byte at an offset; past the bytes given, a free value. -/
def byteAt (mem : List Byte) (off : Nat) : Byte := mem.getD off (Config.unreadByte off)

/-- A number of `len` bytes at an offset, most significant first. -/
def numberAt (mem : List Byte) (off len : Nat) : Nat := beNat ((List.range len).map (fun i => byteAt mem (off + i)))

/-- Bytes of the part of the image before the recipes (11.3). -/
def recipeBase : Nat := 77
/-- Bytes of one recipe. -/
def recipeSize : Nat := 57
/-- Recipes that are read (R189). -/
def recipeLimit : Nat := 24
/-- Step records of the table (R94). -/
def stepCount : Nat := 48

/-- The recipe count byte. -/
def recipeCount (mem : List Byte) : Nat := numberAt mem 76 1
/-- Recipes read. -/
def recipesRead (mem : List Byte) : Nat := min recipeLimit (recipeCount mem)
/-- Offset of the step table, behind all recipes. -/
def stepBase (mem : List Byte) : Nat := recipeBase + recipeSize * recipeCount mem

/-! ## Clamping (R189) -/

/-- A value and how many replacements it took. -/
structure Counted (α : Type) where
  value : α
  count : Nat

/-- The nearer end of a range, counted when the value is replaced. -/
def clamp (lo hi v : Nat) : Counted Nat := if v < lo then ⟨lo, 1⟩ else if hi < v then ⟨hi, 1⟩ else ⟨v, 0⟩

/-- Map a counted value. -/
def Counted.map {α β : Type} (x : Counted α) (f : α → β) : Counted β := ⟨f x.value, x.count⟩

/-- A list of counted values as a counted list. -/
def countAll {α : Type} (l : List (Counted α)) : Counted (List α) := ⟨l.map (·.value), (l.map (·.count)).sum⟩

/-- How many of the bits `lo` to 7 of a byte are set. -/
def bitsFrom (lo : Nat) (x : Nat) : Nat := ((List.range 8).filter (fun i => decide (lo ≤ i) && x.testBit i)).length

/-- A chain head or next byte: 255 is END (R195). -/
def linkOf (n : Nat) : Option Nat := if n == 255 then none else some n

/-- A chain head or next byte is a step number or END (R188, R195). -/
def linkOk (n : Nat) : Bool := decide (n < stepCount) || n == 255

/-- The kind of a step record's kind code (11.3). -/
def stepKindOf : Nat → Option StepKind
  | 1 => some .loadProgram
  | 2 => some .setBand
  | 3 => some .confirmKit
  | 4 => some .correlate
  | 5 => some .waitOperator
  | _ => none

/-- The highest param of a step kind (R94). -/
def paramLimit : StepKind → Nat
  | .loadProgram => 4095
  | .setBand => 3
  | .confirmKit => 63
  | .correlate => 168
  | .waitOperator => 65535

/-- A step record at an offset; a kind code that names no kind leaves estimate 0 and counts once (R94, R189). -/
def stepAt (mem : List Byte) (off : Nat) : Counted StepRecord :=
  let timeout := clamp 1 65535 (numberAt mem (off + 5) 2)
  let next := linkOf (numberAt mem (off + 7) 1)
  let raw := numberAt mem (off + 1) 2
  match stepKindOf (numberAt mem off 1) with
  | some k =>
    let param := clamp 0 (paramLimit k) raw
    ⟨⟨some k, param.value, numberAt mem (off + 3) 2, timeout.value, next⟩, param.count + timeout.count⟩
  | none => ⟨⟨none, raw, 0, timeout.value, next⟩, 1 + timeout.count⟩

/-- The band of a clamped band code. -/
def bandOr (n : Nat) : Band := (bandOfCode n).getD .cold

/-- An insertion of a recipe at an offset. -/
def insertionAt (mem : List Byte) (off : Nat) : Counted RecipeInsertion :=
  let band := clamp 1 3 (numberAt mem off 1)
  let program := clamp 1 4095 (numberAt mem (off + 1) 2)
  let nominal := clamp 100 65535 (numberAt mem (off + 4) 2)
  let soak := clamp 0 60 (numberAt mem (off + 6) 1)
  ⟨⟨bandOr band.value, program.value, linkOf (numberAt mem (off + 3) 1), nominal.value, soak.value⟩,
    band.count + program.count + nominal.count + soak.count⟩

/-- The bins of a good-bin set, bits 1 to 15 (R195). -/
def goodBinsOf (x : Nat) : List Nat := (List.range 16).filter (fun i => decide (1 ≤ i) && x.testBit i)

/-- Keep the bin limits whose bin is not yet listed; one that repeats a bin counts once and is not kept (R189). The bin is
the one after clamping (DESIGN CHOICE, log 79: R189 does not say which it judges). -/
def keepLimits : List Nat → List (Counted BinLimit) → Counted (List BinLimit)
  | _, [] => ⟨[], 0⟩
  | seen, x :: rest =>
    if seen.contains x.value.bin then
      let r := keepLimits seen rest
      ⟨r.value, r.count + 1⟩
    else
      let r := keepLimits (x.value.bin :: seen) rest
      ⟨x.value :: r.value, r.count + x.count⟩

/-- A bin limit at an offset. -/
def binLimitAt (mem : List Byte) (off : Nat) : Counted BinLimit :=
  let bin := clamp 1 15 (numberAt mem off 1)
  let p := clamp 1 1000 (numberAt mem (off + 1) 2)
  ⟨⟨bin.value, p.value⟩, bin.count + p.count⟩

/-- A recipe at an offset (11.3, R189). -/
def recipeAt (mem : List Byte) (off : Nat) : Counted Recipe :=
  let pkg := clamp 1 63 (numberAt mem (off + 2) 1)
  let len := clamp 1 4 (numberAt mem (off + 3) 1)
  let route := countAll ((List.range len.value).map (fun i => insertionAt mem (off + 4 + 7 * i)))
  let yield_ := clamp 0 1000 (numberAt mem (off + 34) 2)
  let sample := clamp 1 4095 (numberAt mem (off + 36) 2)
  let n := clamp 0 4 (numberAt mem (off + 38) 1)
  let limits := keepLimits [] ((List.range n.value).map (fun i => binLimitAt mem (off + 39 + 3 * i)))
  let spread := clamp 0 1000 (numberAt mem (off + 51) 2)
  let siteSample := clamp 1 4095 (numberAt mem (off + 53) 2)
  let scope := numberAt mem (off + 56) 1
  ⟨{ product := numberAt mem off 2
     packageClass := pkg.value
     route := route.value
     goodBins := goodBinsOf (numberAt mem (off + 32) 2)
     yieldLimit := yield_.value
     minSample := sample.value
     binLimits := limits.value
     spreadLimit := spread.value
     siteMinSample := siteSample.value
     runLimit := numberAt mem (off + 55) 1
     familyYield := scope.testBit 0
     familyBin := scope.testBit 1 },
    pkg.count + len.count + route.count + yield_.count + sample.count + n.count + limits.count + spread.count +
      siteSample.count + bitsFrom 2 scope⟩

/-- Keep the recipes whose product code is not 0 and repeats none before it; each other counts once (R189). -/
def keepRecipes : List Nat → List (Counted Recipe) → Counted (List Recipe)
  | _, [] => ⟨[], 0⟩
  | seen, x :: rest =>
    if x.value.product == 0 || seen.contains x.value.product then
      let r := keepRecipes seen rest
      ⟨r.value, r.count + 1⟩
    else
      let r := keepRecipes (x.value.product :: seen) rest
      ⟨x.value :: r.value, r.count + x.count⟩

/-- A filter entry at an offset (R33, 11.3). -/
def filterAt (mem : List Byte) (off : Nat) : FilterEntry :=
  ⟨BitVec.ofNat 24 (numberAt mem off 3), BitVec.ofNat 24 (numberAt mem (off + 3) 3), numberAt mem (off + 6) 1 != 0⟩

/-- A timer setting of the table of R189, by its place in the image. -/
def timerAt (mem : List Byte) (i lo hi : Nat) : Counted Nat := clamp lo hi (numberAt mem (7 + 2 * i) 2)

/-- The working copy of a sound image (R188, R189). -/
def workingCopy (mem : List Byte) : WorkingCopy :=
  let rate := clamp 1 3 (numberAt mem 6 1)
  let bidWindow := timerAt mem 0 1 10
  let accept := timerAt mem 1 2 30
  let arrival := timerAt mem 2 10 240
  let reoffer := timerAt mem 3 5 600
  let attempts := timerAt mem 4 1 15
  let release := timerAt mem 5 5 60
  let rollcall := timerAt mem 6 2 30
  let rejoin := timerAt mem 7 1 60
  let remote := timerAt mem 8 2 30
  let fitted := clamp 1 8 (numberAt mem 53 1)
  let least := clamp 1 fitted.value (numberAt mem 54 1)
  let bands := numberAt mem 55 1
  let slots := clamp 1 4 (numberAt mem 56 1)
  let level := clamp 0 1 (numberAt mem 57 1)
  let recipes := keepRecipes [] ((List.range (recipesRead mem)).map (fun i => recipeAt mem (recipeBase + recipeSize * i)))
  let steps := countAll ((List.range stepCount).map (fun i => stepAt mem (stepBase mem + 8 * i)))
  { imageLength := numberAt mem 2 2
    clamped := rate.count + bidWindow.count + accept.count + arrival.count + reoffer.count + attempts.count + release.count +
      rollcall.count + rejoin.count + remote.count + fitted.count + least.count + bitsFrom 3 bands + slots.count + level.count +
      recipes.count + steps.count
    bitRate := 125 * 2 ^ (rate.value - 1)
    bidWindow := bidWindow.value
    acceptTimeout := accept.value
    arrivalTimeout := arrival.value
    reofferInterval := reoffer.value
    attemptLimit := attempts.value
    releaseWindow := release.value
    rollcallWindow := rollcall.value
    rejoinInterval := rejoin.value
    remoteTimeout := remote.value
    filters := (List.range 4).map (fun i => filterAt mem (25 + 7 * i))
    sitesFitted := fitted.value
    minSites := least.value
    bands := ([.cold, .room, .hot] : List Band).filter (fun x => bands.testBit (bandCode x - 1))
    slotCount := slots.value
    busyActiveHigh := level.value == 1
    transition := (List.range 9).map (fun i => numberAt mem (58 + 2 * i) 2)
    recipes := recipes.value
    steps := steps.value }

/-! ## Checking the image (R188) -/

/-- The sum of the bytes from offset 6 to the length, modulo 65,536. -/
def byteSum (mem : List Byte) (length : Nat) : Nat :=
  ((List.range (length - 6)).foldl (fun acc i => acc + (byteAt mem (6 + i)).toNat) 0) % 65536

/-- The HEADER check (R188, R195). -/
def headerOk (mem : List Byte) : Bool :=
  let length := numberAt mem 2 2
  numberAt mem 0 2 == 0x4A43 && decide (6 ≤ length) && decide (length ≤ 8192) && decide (461 + 57 * recipeCount mem ≤ length)

/-- The chain head bytes that are checked: those within each recipe's clamped route length (R195). -/
def chainHeads (mem : List Byte) : List Nat :=
  (List.range (recipesRead mem)).flatMap (fun i =>
    let off := recipeBase + recipeSize * i
    (List.range (clamp 1 4 (numberAt mem (off + 3) 1)).value).map (fun j => numberAt mem (off + 4 + 7 * j + 3) 1))

/-- The next bytes of the step records. -/
def stepNexts (mem : List Byte) : List Nat := (List.range stepCount).map (fun i => numberAt mem (stepBase mem + 8 * i + 7) 1)

/-- The first check of R188 that fails, if one does. -/
def imageFault? (memory : Option (List Byte)) : Option ConfigCause :=
  match memory with
  | none => some .noImage
  | some mem =>
    if !headerOk mem then some .header
    else if byteSum mem (numberAt mem 2 2) != numberAt mem 4 2 then some .sum
    else if (List.range (recipesRead mem)).any (fun i =>
        (goodBinsOf (numberAt mem (recipeBase + recipeSize * i + 32) 2)).isEmpty) then some .goodBins
    else if !((stepNexts mem).all linkOk && (chainHeads mem).all linkOk) then some .stepLink
    else none

/-! ## Starting (R190, R191) -/

/-- The straps give a station number (R190). -/
def strapsOk (straps : BitVec 6) : Bool := stationOk straps.toNat

/-- The operator line after a warm reset taken at time `now`: a line being sent is ended, replies queued and not begun are
kept, the receiver still discards what it was discarding (R183, R187). How much of the line had gone out is a free value
(log 60). A RESTART whose reply is still to be sent is dropped by a reset of the pin: its OK goes out after the reset and no
second reset follows it (DESIGN CHOICE, log 85: R192 does not say). The line being gathered is discarded, and what the sender
still sends of it is gathered as a new line (DESIGN CHOICE, log 86: R183 does not say). -/
def OperatorLine.afterReset (o : OperatorLine) (now : Nat) : OperatorLine :=
  { OperatorLine.powerOn with
    replies := o.replies ++ List.replicate o.busyBehind (.no .busy)
    discarding := o.discarding
    sent := o.sent ++ (o.sending.map (fun l => SentLine.cut l (Config.sentBeforeCut now))).toList }

/-- The operator line once the loader has finished: the receiver still discards what it was discarding (R183, R191). -/
def OperatorLine.afterLoading (o : OperatorLine) : OperatorLine := { OperatorLine.powerOn with discarding := o.discarding }

/-- Enter CONFIG_FAULT: every block is as after power-on and holds nothing, and the notice is queued (R190). The slot table is
empty and all sites are FITTED_OFF with cause STRAPS too, although the cell description of a sound image is then kept
(DESIGN CHOICE, log 71: R190 says that no block holds any record and does not give these values). -/
def State.enterConfigFault (s : State) (cause : ConfigCause) (op : OperatorLine) : State :=
  { s with
    run := .configFault cause
    blocks := (({ Blocks.blank with op := op, ports := s.blocks.ports }).note (.configFault cause)).beginLine }

/-- Every block takes its power-on values, a roll call is started and STARTED is queued; the ROLLCALL is due, and is placed
as the link controller joins the line (R40, R170, R191). -/
def State.startBlocks (s : State) (op : OperatorLine) : State :=
  let s := { s with run := .running }
  let b := { Blocks.powerOn s.image.slotCount s.image.sitesFitted (some s.clock) with op := op, ports := s.blocks.ports }
  let b := b.note (.started s.straps.toNat s.image.imageLength s.image.recipes.length s.image.clamped)
  { s with blocks := (b.modFamily (fun f => { f with rollcallDue := true })).beginLine }

/-- The straps are judged: with a station number the part starts, else it enters CONFIG_FAULT (R190, R191). -/
def State.judgeStraps (s : State) (op : OperatorLine) : State :=
  if strapsOk s.straps then s.startBlocks op else s.enterConfigFault .straps op

/-! ## Warm reset -/

/-- What warm reset makes of a lot record (R18, R67, R86, R181); INBOUND_PENDING records are removed apart. -/
def LotRecord.afterReset (r : LotRecord) : LotRecord :=
  let r := { r with releaseRetry := none }
  match r.state with
  | .offered => { r with state := .awaiting, offer := none, peer := none, deadline := none }
  | .awarded => { r with state := .awaiting, awardDue := false, dossierSend := none, peer := none, deadline := none }
  | .queued => { r with awardDue := false }
  | .setup => { r with state := .queued, account := none }
  | .releasing => { r with state := .finished, intent := none, deadline := none }
  | _ => r

/-- The setup state after warm reset (R112). -/
def SetupUnit.afterReset (u : SetupUnit) (now : Nat) : SetupUnit :=
  { u with
    slots := u.slots.map (fun p => if p.state == .loading then { p with state := .invalid } else p)
    inFlight := none
    operatorDeadline := none
    thermal := match u.thermal.phase with
      | .ramping | .soaking => { u.thermal with phase := .unknown, soak := 0 }
      | _ => u.thermal
    kitSince := some now
    engine := .idle
    walk := none }

/-- The touchdown in flight at a warm reset is voided into void_open (R135). -/
def Blocks.resetTouchdown (b : Blocks) : Blocks :=
  match b.td.touchdown with
  | some t =>
    if t.stage == .sorting then b
    else match b.testLot? with
      | some r => b.voidTouchdown r.lot t Account.voidToOpen
      | none => b.sortTouchdown t (fun _ => .void)
  | none => b

/-- RESTART holds on the lots that were in SETUP, IN_TEST or CLOSING (R18). -/
def Blocks.raiseRestarts (c : Ctx) (b : Blocks) (lots : List Nat) : Blocks := b.forLots lots (fun b lot => b.raise c lot .restart)

/-- The blocks after a warm reset (R18, R41, R67, R86, R112, R135, R155, R170, R181, R187). The link state is NORMAL from then
on, and no LINK_STATE notice is queued where it was another before (DESIGN CHOICE, log 65: R35 queues one at each change, R41
and R192 name none). The RESTART holds are raised before the FAMILY holds of UNSETTLED (DESIGN CHOICE, log 96: R18, R155 and R170
put them in no order, and R192 names UNSETTLED first). -/
def Blocks.warmReset (c : Ctx) (byPin : Bool) (b : Blocks) : Blocks :=
  let restarted := (b.lots.filter (fun r => r.state == .setup || r.state == .inTest || r.state == .closing)).map (·.lot)
  let b := ({ b with op := b.op.afterReset c.now }).note (.restarted byPin c.own)
  let b := ({ b with link := LinkCtl.powerOn, remote := none, bids := [] }).unplaceRing
  let b := b.resetTouchdown
  let b := b.modTd (fun u => { u with latch := true, stopMark := false, timerRing := [] })
  let b := b.modSetup (fun u => u.afterReset c.now)
  let b := { b with
    lots := b.lots.map LotRecord.afterReset
    custody := { b.custody with sendList := [] }
    release := { b.release with objections := [] } }
  let b := b.dropCollections c
  let b := b.freeEnding c
  let b := b.raiseRestarts c restarted
  let b := b.modFamily FamilyUnit.endRollcall
  let b := b.unsettleFamilies c
  (b.placeAllShipped c).settle c

/-- A warm reset is taken, by the pin or by the request, with the straps sampled anew (R190, R192). -/
def State.warmReset (s : State) (straps : BitVec 6) : State :=
  let byPin := s.pins.resetHeld
  let s := { s with straps := if s.run == RunState.off then s.straps else straps, pins := { s.pins with resetHeld := false } }
  match s.run with
  | .off | .loading => s
  | .configFault cause =>
    if s.imageKept then s.judgeStraps (s.blocks.op.afterReset s.clock)
    else s.enterConfigFault cause (s.blocks.op.afterReset s.clock)
  | .running =>
    if strapsOk straps then { s with blocks := (s.blocks.warmReset s.ctx byPin).beginLine }
    else s.enterConfigFault .straps (s.blocks.op.afterReset s.clock)

/-! ## The meanings -/

/-- POWER_ON: the floor clock starts at 0, the straps are sampled, the loader begins (R191). -/
def execPowerOn (straps : BitVec 6) (s : State) : Host.Outcome State Fault Refusal :=
  .next { s with
    clock := 0, run := .loading, straps := straps, image := WorkingCopy.blank, imageKept := false, blocks := Blocks.blank }

/-- IMAGE_LOADED: the image is checked and clamped, the straps are judged (R188, R189, R191). -/
def execImageLoaded (memory : Option (List Byte)) (s : State) : Host.Outcome State Fault Refusal :=
  .next (if s.run == .loading && !s.pins.resetHeld then
    match imageFault? memory, memory with
    | none, some mem => ({ s with image := workingCopy mem, imageKept := true }).judgeStraps s.blocks.op.afterLoading
    | some cause, _ => s.enterConfigFault cause s.blocks.op.afterLoading
    | none, none => s.enterConfigFault .noImage s.blocks.op.afterLoading
  else s)

/-- RESET_N_ASSERTED: the part sends and takes nothing while the pin is held (R192). -/
def execResetNAsserted (s : State) : Host.Outcome State Fault Refusal := .next { s with pins := { s.pins with resetHeld := true } }

/-- WARM_RESET: taken on the release of RESET_N, or once the RESTART reply has been sent (R192). -/
def execWarmReset (straps : BitVec 6) (s : State) : Host.Outcome State Fault Refusal :=
  .next (if s.pins.resetHeld || s.blocks.op.restartReady then s.warmReset straps else s)

end Sys2Proof.Machine
end

