-- ==== Sys2Proof/Machine/Dispatch.lean ====
section
/-! DEFINITION. One arm per command: each calls its meaning. -/

namespace Sys2Proof.Machine

def exec (i : Instr) (s : State) : Host.Outcome State Fault Refusal :=
  match i with
  | .powerOn straps => Sys2Proof.Machine.execPowerOn straps s
  | .imageLoaded memory => Sys2Proof.Machine.execImageLoaded memory s
  | .resetNAsserted => Sys2Proof.Machine.execResetNAsserted s
  | .warmReset straps => Sys2Proof.Machine.execWarmReset straps s
  | .enter lot product qty family priority => Sys2Proof.Machine.execEnter lot product qty family priority s
  | .arrive lot => Sys2Proof.Machine.execArrive lot s
  | .recall lot => Sys2Proof.Machine.execRecall lot s
  | .reoffer lot => Sys2Proof.Machine.execReoffer lot s
  | .pauseWalk => Sys2Proof.Machine.execPauseWalk s
  | .continueWalk => Sys2Proof.Machine.execContinueWalk s
  | .abortSetup => Sys2Proof.Machine.execAbortSetup s
  | .preload slot program => Sys2Proof.Machine.execPreload slot program s
  | .evict slot => Sys2Proof.Machine.execEvict slot s
  | .startCell => Sys2Proof.Machine.execStartCell s
  | .stopCell => Sys2Proof.Machine.execStopCell s
  | .abortTd => Sys2Proof.Machine.execAbortTd s
  | .siteEnable site => Sys2Proof.Machine.execSiteEnable site s
  | .siteDisable site => Sys2Proof.Machine.execSiteDisable site s
  | .holdLot lot => Sys2Proof.Machine.execHoldLot lot s
  | .dispose lot kind disposition => Sys2Proof.Machine.execDispose lot kind disposition s
  | .purge family lot => Sys2Proof.Machine.execPurge family lot s
  | .status subject lot => Sys2Proof.Machine.execStatus subject lot s
  | .restart => Sys2Proof.Machine.execRestart s
  | .malformedRequest why => Sys2Proof.Machine.execMalformedRequest why s
  | .lineDiscardedBusy => Sys2Proof.Machine.execLineDiscardedBusy s
  | .outgoingLineSent => Sys2Proof.Machine.execOutgoingLineSent s
  | .sendAttempt => Sys2Proof.Machine.execSendAttempt s
  | .frameSent => Sys2Proof.Machine.execFrameSent s
  | .arbitrationLost => Sys2Proof.Machine.execArbitrationLost s
  | .transmitError onlyMissingAck => Sys2Proof.Machine.execTransmitError onlyMissingAck s
  | .receiveError => Sys2Proof.Machine.execReceiveError s
  | .rejoin => Sys2Proof.Machine.execRejoin s
  | .frameDiscarded cls kind src => Sys2Proof.Machine.execFrameDiscarded cls kind src s
  | .holdHeard src family lot raiser => Sys2Proof.Machine.execHoldHeard src family lot raiser s
  | .clearHeard src family lot raiser => Sys2Proof.Machine.execClearHeard src family lot raiser s
  | .objectHeard src lot reason objected => Sys2Proof.Machine.execObjectHeard src lot reason objected s
  | .awardHeard src lot winner => Sys2Proof.Machine.execAwardHeard src lot winner s
  | .dossierHeard src segment => Sys2Proof.Machine.execDossierHeard src segment s
  | .acceptHeard src lot offerer => Sys2Proof.Machine.execAcceptHeard src lot offerer s
  | .takeHeard src lot offerer => Sys2Proof.Machine.execTakeHeard src lot offerer s
  | .declineHeard src lot offerer => Sys2Proof.Machine.execDeclineHeard src lot offerer s
  | .recallHeard src lot winner => Sys2Proof.Machine.execRecallHeard src lot winner s
  | .offerHeard src offer => Sys2Proof.Machine.execOfferHeard src offer s
  | .bidHeard src lot offerer cost => Sys2Proof.Machine.execBidHeard src lot offerer cost s
  | .rollcallHeard src => Sys2Proof.Machine.execRollcallHeard src s
  | .intentHeard src lot family => Sys2Proof.Machine.execIntentHeard src lot family s
  | .shippedHeard src lot family good => Sys2Proof.Machine.execShippedHeard src lot family good s
  | .disposeHeard src lot kind disposition requester => Sys2Proof.Machine.execDisposeHeard src lot kind disposition requester s
  | .disposedHeard src lot kind result requester => Sys2Proof.Machine.execDisposedHeard src lot kind result requester s
  | .reofferDeadline lot => Sys2Proof.Machine.execReofferDeadline lot s
  | .bidWindowClose lot => Sys2Proof.Machine.execBidWindowClose lot s
  | .bidRecordExpiry lot => Sys2Proof.Machine.execBidRecordExpiry lot s
  | .acceptTimeout lot => Sys2Proof.Machine.execAcceptTimeout lot s
  | .arrivalTimeout lot => Sys2Proof.Machine.execArrivalTimeout lot s
  | .releaseRetryTime lot => Sys2Proof.Machine.execReleaseRetryTime lot s
  | .releaseWindowClose lot => Sys2Proof.Machine.execReleaseWindowClose lot s
  | .shippedRetry lot => Sys2Proof.Machine.execShippedRetry lot s
  | .rollcallRetry => Sys2Proof.Machine.execRollcallRetry s
  | .rollcallWindowEnd => Sys2Proof.Machine.execRollcallWindowEnd s
  | .remoteAnswerTimeout => Sys2Proof.Machine.execRemoteAnswerTimeout s
  | .stepTimeout => Sys2Proof.Machine.execStepTimeout s
  | .selectionDeadline => Sys2Proof.Machine.execSelectionDeadline s
  | .operatorCommandTimeout => Sys2Proof.Machine.execOperatorCommandTimeout s
  | .soakEnd => Sys2Proof.Machine.execSoakEnd s
  | .kitLinesChange lines => Sys2Proof.Machine.execKitLinesChange lines s
  | .kitTaken => Sys2Proof.Machine.execKitTaken s
  | .testerFault => Sys2Proof.Machine.execTesterFault s
  | .handlerFault => Sys2Proof.Machine.execHandlerFault s
  | .faultLineDeasserted line => Sys2Proof.Machine.execFaultLineDeasserted line s
  | .testBusyChange level => Sys2Proof.Machine.execTestBusyChange level s
  | .loaded slot => Sys2Proof.Machine.execLoaded slot s
  | .loadFailed slot => Sys2Proof.Machine.execLoadFailed slot s
  | .cancelled slot => Sys2Proof.Machine.execCancelled slot s
  | .evicted slot => Sys2Proof.Machine.execEvicted slot s
  | .selected slot => Sys2Proof.Machine.execSelected slot s
  | .checkPass => Sys2Proof.Machine.execCheckPass s
  | .checkFail => Sys2Proof.Machine.execCheckFail s
  | .atTemp band => Sys2Proof.Machine.execAtTemp band s
  | .tempLost => Sys2Proof.Machine.execTempLost s
  | .tdReady occupied => Sys2Proof.Machine.execTdReady occupied s
  | .tdResult sequence bins => Sys2Proof.Machine.execTdResult sequence bins s
  | .sorted => Sys2Proof.Machine.execSorted s
  | .tdTimeout => Sys2Proof.Machine.execTdTimeout s
  | .lotEmpty => Sys2Proof.Machine.execLotEmpty s
  | .portMessageDiscarded port => Sys2Proof.Machine.execPortMessageDiscarded port s
  | .joinLine => Sys2Proof.Machine.execJoinLine s
  | .portLineIdle port => Sys2Proof.Machine.execPortLineIdle port s

end Sys2Proof.Machine
end

