-- ==== Sys2Proof/Machine/Step.lean ====
section
/-! DEFINITION. The step: the command at the front of the queue is taken; on an empty queue one millisecond of the
floor clock passes, and what has come due in it joins the queue (DESIGN CHOICE, log 1). -/

namespace Sys2Proof.Machine

/-- A time is reached. -/
def reached (now : Nat) (t : Option Nat) : Bool :=
  match t with
  | some t => decide (t ≤ now)
  | none => false

/-- The expiry command of a record's deadline, when it is reached (R4). -/
def LotRecord.dueCommand? (now : Nat) (r : LotRecord) : Option Instr :=
  match r.deadline with
  | some d =>
    if d.time ≤ now then some (match d.kind with
      | .reoffer => .reofferDeadline r.lot
      | .bidWindow => .bidWindowClose r.lot
      | .acceptTimeout => .acceptTimeout r.lot
      | .arrivalTimeout => .arrivalTimeout r.lot
      | .releaseWindow => .releaseWindowClose r.lot)
    else none
  | none => none

/-- A list with one command, or none. -/
def whenDue (due : Bool) (cmd : Instr) : List Instr := if due then [cmd] else []

/-- The expiries that the floor clock has reached. -/
def State.dueCommands (s : State) : List Instr :=
  let now := s.clock
  let b := s.blocks
  b.lots.filterMap (LotRecord.dueCommand? now) ++
  b.lots.filterMap (fun r => if r.releaseRetry.isSome && b.releasable s.ctx r then some (.releaseRetryTime r.lot) else none) ++
  b.bids.filterMap (fun r => if r.expiry ≤ now then some (.bidRecordExpiry r.lot) else none) ++
  b.release.ring.filterMap (fun e => if e.due && reached now e.retry then some (.shippedRetry e.lot) else none) ++
  whenDue (reached now b.family.rollcallRetry) .rollcallRetry ++
  whenDue (reached now b.family.window) .rollcallWindowEnd ++
  whenDue (reached now (b.remote.map (·.deadline))) .remoteAnswerTimeout ++
  whenDue (reached now b.setup.stepDeadline?) .stepTimeout ++
  whenDue (reached now b.setup.selectionDeadline?) .selectionDeadline ++
  whenDue (reached now b.setup.operatorDeadline) .operatorCommandTimeout ++
  whenDue (b.setup.thermal.phase == .soaking && b.setup.thermal.soak == 0) .soakEnd ++
  whenDue (reached now (b.setup.kitSince.map (· + Config.kitDebounceMs))) .kitTaken ++
  whenDue (reached now b.td.deadline?) .tdTimeout ++
  whenDue (b.link.state == .withdrawn && s.rejoinLeft == 0) .rejoin

/-- One millisecond passes with no command waiting; what it has brought due waits in the queue. Without power
nothing happens. -/
def State.tick (s : State) : State :=
  if s.run == .off then s
  else
    let s := s.elapse 1
    if s.live then { s with pending := s.dueCommands } else s

/-- One step: the command at the front of the queue, or a millisecond of the floor clock. -/
def step (s : State) : Host.Outcome State Fault Refusal :=
  match s.pending with
  | [] => .next s.tick
  | c :: rest => exec c { s with pending := rest }

/-- `s` with the command that a table word spells at the front of its queue. -/
def State.withFetchWord (s : State) (nbits w : Nat) : State :=
  match decodeTableWord nbits w with
  | some c => { s with pending := c :: s.pending }
  | none => s

end Sys2Proof.Machine
end

