-- ==== Sys2Proof/Safety.lean ====
section
/-! DEFINITION. What counts as a safe run, in the terms the statements use: which commands reach the part, the shape of
the state after an answered request, a heard frame or an event, and the invariants of the machine. -/

namespace Sys2Proof.Machine

/-! ## Commands by the path they take -/

/-- The command is a line of the operator: a request, or a line that is none (R184). -/
def Instr.isLine : Instr → Bool
  | .enter .. | .arrive _ | .recall _ | .reoffer _ | .pauseWalk | .continueWalk | .abortSetup | .preload .. | .evict _
  | .startCell | .stopCell | .abortTd | .siteEnable _ | .siteDisable _ | .holdLot _ | .dispose .. | .purge ..
  | .status .. | .restart | .malformedRequest _ => true
  | _ => false

/-- The command is a request other than STATUS (R184). -/
def Instr.isOrder : Instr → Bool
  | .status .. | .malformedRequest _ => false
  | c => Instr.isLine c

/-- The command is a supply, reset or input level, which reaches the part whether or not it runs (R190 to R192, 11.4). -/
def Instr.isLevel : Instr → Bool
  | .powerOn _ | .imageLoaded _ | .resetNAsserted | .warmReset _ | .kitLinesChange _ | .testerFault | .handlerFault
  | .faultLineDeasserted _ | .testBusyChange _ | .portLineIdle _ => true
  | _ => false

/-- The command works the operator line. -/
def Instr.isTerminal (c : Instr) : Bool :=
  Instr.isLine c || (match c with | .lineDiscardedBusy | .outgoingLineSent => true | _ => false)

/-- The port whose message the command is (11.2). -/
def Instr.port? : Instr → Option Port
  | .loaded _ | .loadFailed _ | .cancelled _ | .evicted _ | .selected _ | .checkPass | .checkFail | .tdResult .. => some .tester
  | .atTemp _ | .tempLost | .tdReady _ | .sorted | .lotEmpty => some .handler
  | _ => none

/-! ## The shape of the state after a command -/

/-- The part runs, and a line completed now is parsed at once (R183). -/
def State.parses (s : State) : Bool := s.live && !s.blocks.op.restarting && !s.blocks.op.replying

/-- The state once the blocks stand at `b`, what follows every change has followed, and the operator line has begun
its next line if it is free. -/
def State.settled (s : State) (b : Blocks) : State := { s with blocks := (b.settle s.ctx).beginLine }

/-- The state after a request that left the blocks at `b` and is answered `r`, with nothing following. -/
def State.replied (s : State) (b : Blocks) (r : Reply) : State := { s with blocks := (b.reply r).beginLine }

/-- The state after an accepted request that left the blocks at `b` and is answered `r`. -/
def State.accepted (s : State) (b : Blocks) (r : Reply) : State := s.settled (b.reply r)

/-- The operator line of `t`, once a reset from `s` has queued `n` and the next line has begun: the replies that waited in `s`
are kept and go out first, the line being sent is cut, all else starts anew (R183, R187, R192). -/
def State.keptReplies (s t : State) (n : Notice) : Prop :=
  let kept := s.blocks.op.replies ++ List.replicate s.blocks.op.busyBehind (.no .busy)
  (kept = [] → t.blocks.op.sending = some (.notice n none) ∧ t.blocks.op.replies = [] ∧ t.blocks.op.notices = []) ∧
  (∀ r rs, kept = r :: rs → t.blocks.op.sending = some (.reply r) ∧ t.blocks.op.replies = rs ∧ t.blocks.op.notices = [n]) ∧
  ∃ m, t.blocks.op = { OperatorLine.powerOn with
    sending := t.blocks.op.sending, replies := t.blocks.op.replies, notices := t.blocks.op.notices
    discarding := s.blocks.op.discarding
    sent := s.blocks.op.sent ++ (s.blocks.op.sending.map (fun l => SentLine.cut l m)).toList }

/-- A reset from `s` has entered CONFIG_FAULT in `t`: no block holds anything but the operator line and what the ports were
given, and the notice names the cause (R190). -/
def State.faultedByReset (s t : State) (straps : BitVec 6) (cause : ConfigCause) : Prop :=
  t = { s with
    straps := straps, run := .configFault cause, pins := { s.pins with resetHeld := false }
    blocks := { Blocks.blank with op := t.blocks.op, ports := s.blocks.ports } } ∧ s.keptReplies t (.configFault cause)

/-- A frame with the station field `src` is delivered (R19, R31, R37). -/
def State.hears (s : State) (src : Nat) : Bool :=
  s.live && s.blocks.link.up && stationOk src && src != s.straps.toNat

/-- The blocks once a frame has counted as received (R34), which it does before it is delivered (log 74). -/
def State.received (s : State) : Blocks := s.blocks.reception s.ctx

/-- The link controller has come to stand at `l`, its link state derived anew from the counters; a change is noticed (R34, R35).
What the blocks do as QUIET or WITHDRAWN is entered is no part of it. -/
def Blocks.counted (b : Blocks) (l : LinkCtl) : Blocks :=
  let st := linkStateOf l.txErr l.rxErr
  if st = b.link.state then { b with link := l }
  else ({ b with link := { l with state := st } } : Blocks).note (.linkState st l.txErr l.rxErr)

/-- The part runs and takes the messages of a port (R194). -/
def State.takesPort (s : State) (p : Port) : Bool := s.live && !s.blocks.ports.ignoring p

/-- Of the lot table only the record of `lot` differs from before, and it is now `r`. -/
def Blocks.rewrote (before after : Blocks) (lot : Nat) (r : LotRecord) : Prop :=
  after.lot? lot = some r ∧ ∀ l, l ≠ lot → after.lot? l = before.lot? l

/-- The frame on the wire stands in slot `i`. -/
def LinkCtl.sends (l : LinkCtl) (i : Nat) (e : SlotEntry) : Prop :=
  l.slots[i]? = some (some e) ∧ e.onWire = true ∧ ∀ j < i, ∀ x, l.slots[j]? = some (some x) → x.onWire = false

/-- Slot `i` is the lowest EMPTY slot, and no slot request stands before a frame that asks for it (R24, R29). -/
def LinkCtl.freeAt (l : LinkCtl) (i : Nat) : Prop :=
  l.requests = [] ∧ l.slots[i]? = some none ∧ ∀ j < i, ∀ x, l.slots[j]? = some x → x ≠ none

/-- A frame has been put into a slot as PENDING (R20, R24). -/
def Blocks.placed (b : Blocks) (own i : Nat) (f : Frame) : Blocks :=
  { b with link := { b.link with
      slots := b.link.slots.set i (some ⟨f, frameIdentifier own f.data, b.link.placements + 1, false, false⟩)
      placements := b.link.placements + 1 } }

/-- No frame that `p` picks is PENDING, and one on the wire carries the cancel mark (R30). -/
def LinkCtl.cancelled (l : LinkCtl) (p : Frame → Bool) : Prop :=
  ∀ y ∈ l.slots, ∀ e ∈ y, p e.frame = true → e.onWire = true ∧ e.cancelMark = true

/-- A roll call has been started from `before` to `after`: it is due, and its ROLLCALL stands in a slot, placed last, or is placed
again 1 s later; it is placed where a slot was EMPTY and the link takes frames (R165). -/
def Blocks.rollcallStarted (before after : Blocks) (now : Nat) : Prop :=
  after.family.rollcallDue = true ∧
  ((after.family.rollcallRetry = none ∧
      ∃ y ∈ after.link.slots, ∃ e ∈ y, e.frame.isRollcall = true ∧ e.placement = after.link.placements) ∨
    after.family.rollcallRetry = some (now + Config.retryMs)) ∧
  (before.link.state ≠ .withdrawn → ∀ i, before.link.freeAt i → after.family.rollcallRetry = none)

/-- The due ROLLCALL is as it was. -/
def Blocks.rollcallKept (before after : Blocks) : Prop :=
  after.family.rollcallDue = before.family.rollcallDue ∧ after.family.rollcallRetry = before.family.rollcallRetry

/-- What an entry that has left the list does to the roll call: one is started when SATURATED is set and none is due or running,
else nothing changes; SATURATED and the refusal mark stay (R167). -/
def Blocks.rollcallAfterRemoval (before after : Blocks) (now : Nat) : Prop :=
  (before.family.saturated = true → before.family.rollcallDue = false → before.family.window = none →
    before.rollcallStarted after now) ∧
  (before.family.saturated = false ∨ before.family.rollcallDue = true ∨ before.family.window.isSome = true →
    before.rollcallKept after) ∧
  after.family.window = before.family.window ∧ after.family.saturated = before.family.saturated ∧
  after.family.refusalMark = before.family.refusalMark

/-- The entry of a key has left the list and no other has. Only where its place goes to the first lot in custody that has a hold
of family scope and no local entry does an entry join the list, or another station's entry of that lot's own key become local
(R167); a lot that is ending takes no place (log 24). -/
def Blocks.entryRemoved (before after : Blocks) (family lot : Nat) : Prop :=
  ((∀ r ∈ before.lots, r.inCustody = true → r.familyScope = true → r.ending = false →
      ∃ x ∈ before.family.entries, x.isLocal = true ∧ x.family = r.family ∧ x.lot = r.lot ∧ (x.family, x.lot) ≠ (family, lot)) →
    after.family.entries = before.family.entries.filter (fun x => !(x.family == family && x.lot == lot))) ∧
  (∀ x ∈ after.family.entries, x.isLocal = false → (x.family, x.lot) ≠ (family, lot) ∧ x ∈ before.family.entries) ∧
  ∀ x ∈ before.family.entries, (x.family, x.lot) ≠ (family, lot) → x ∈ after.family.entries ∨
    x.isLocal = false ∧ ∃ r ∈ before.lots, r.lot = x.lot ∧ r.family = x.family ∧ r.inCustody = true ∧
      r.familyScope = true ∧ ∃ y ∈ after.family.entries, y.isLocal = true ∧ y.family = x.family ∧ y.lot = x.lot

/-- Where the place of a key's entry has gone once the entry has left the list: to the lot in custody of lowest lot id that has a
hold of family scope and no local entry. It gets its local entry, HOLD due, in the free place, or another station's entry of its key
becomes local (R158, R167); a lot that is ending takes no place (log 24). -/
def Blocks.placeGiven (before after : Blocks) (family lot own now : Nat) : Prop :=
  let kept := before.family.entries.filter (fun x => !(x.family == family && x.lot == lot))
  let lacking := fun (r : LotRecord) => r ∈ before.lots ∧ r.inCustody = true ∧ r.familyScope = true ∧ r.ending = false ∧
    ∀ x ∈ kept, x.isLocal = true → (x.family, x.lot) ≠ (r.family, r.lot)
  ∀ r, lacking r → (∀ q, lacking q → r.lot ≤ q.lot) →
    let made : FamilyEntry := ⟨r.family, r.lot, own, true, .confirmed, now, true⟩
    let ofKey := fun (x : FamilyEntry) => x.family == r.family && x.lot == r.lot
    after.family.entries = if kept.any ofKey then kept.map (fun x => if ofKey x then made else x) else kept ++ [made]

/-- The last hold of family scope has left the lot of a key with a local entry, from `before`, in which it is off, to `after` (R158):
the entry leaves the list, its place is given away and a roll call may start (R167); its HOLD is cancelled and its CLEAR is due
(R159); of the lots in custody just those carry a FAMILY hold whose family is held and that own no entry (R163, R164), the lot
itself among them, and no hold of another kind is gone. -/
def Blocks.familyScopeEnded (before after : Blocks) (c : Ctx) (family lot : Nat) : Prop :=
  before.entryRemoved after family lot ∧ before.placeGiven after family lot c.own c.now ∧ before.rollcallAfterRemoval after c.now ∧
  (∀ x ∈ after.family.entries, (x.family, x.lot) ≠ (family, lot)) ∧ (family, lot) ∈ after.family.clearDue ∧
  after.link.cancelled (Frame.isHoldOf family lot) ∧ after.release = before.release ∧ after.remote = before.remote ∧
  (∀ q ∈ after.lots, q.inCustody = true → q.ending = false →
    (q.hasHold .family = true ↔ after.family.holdsFamily q.family = true ∧ after.ownsEntry q = false)) ∧
  (∀ q ∈ before.lots, ∃ q' ∈ after.lots, q'.lot = q.lot ∧ ∀ h ∈ q.holds, h.kind ≠ .family → h ∈ q'.holds) ∧
  ∀ q, before.lot? lot = some q → q.inCustody = true → q.ending = false → q.state ≠ .releasing → q.hasHold .family = false →
    ∃ q', after.lot? lot = some q' ∧ q' = { q with
      holds := q.holds ++
        (if after.family.holdsFamily q.family then [⟨.family, q.insertionNo, c.now, .lot, none, []⟩] else [])
      offer := q'.offer, dossierSend := q'.dossierSend }

/-- The SHIPPED of the lot `r` has been tried as its ring entry was made, from `before` to `after`: it stands PENDING in a slot whose
placement number the entry keeps, or is placed again 1 s later; it is placed where a slot was EMPTY and the link takes frames (R177,
R178). -/
def Blocks.shippedTried (before after : Blocks) (r : LotRecord) (now : Nat) : Prop :=
  ∃ y, after.release.ring.getLast? = some y ∧
    ((y.retry = none ∧ ∃ z ∈ after.link.slots, ∃ f ∈ z, y.placement = some f.placement ∧ f.onWire = false ∧
        f.cancelMark = false ∧ f.frame = ⟨.release, r.lot, .shipped r.lot r.family r.lastGood⟩) ∨
      (y.retry = some (now + Config.retryMs) ∧ y.placement = none)) ∧
    (before.link.state ≠ .withdrawn → ∀ i, before.link.freeAt i → y.retry = none)

/-- The hold list of a record once a hold of scope LOT and no trigger has been raised on it at time `now` (R142). -/
def LotRecord.raised (r : LotRecord) (k : HoldKind) (now : Nat) : LotRecord :=
  if r.hasHold k then r else { r with holds := r.holds ++ [⟨k, r.insertionNo, now, .lot, none, []⟩] }

/-- The engine has faulted from `before` to `after`: what stood in its walk has ended, the cause and the step are recorded,
SETUP_FAULT is queued and the lot in SETUP carries a SETUP hold (R106). -/
def Blocks.faultedFrom (before after : Blocks) (w : Walk) (cause : FaultCause) (now : Nat) : Prop :=
  after.setup.engine = .faulted ∧
  after.setup.walk = some { w with inStep := false, deadline := none, deferred := none, fault := some (cause, w.current) } ∧
  (∀ r, before.lot? w.lot = some r → r.state = .setup → r.ending = false → before.rewrote after w.lot (r.raised .setup now)) ∧
  (before.op.notices.length < 16 → Notice.setupFault w.lot cause w.current ∈ after.op.notices) ∧
  after.setup.kitTaken = before.setup.kitTaken ∧ after.setup.kitSince = before.setup.kitSince ∧
  ∀ r, before.lot? w.lot = some r → r.state = .setup →
    after = { before with lots := after.lots, setup := after.setup, op := after.op, ports := after.ports }

/-- What a timeout, or a fault of the walk's own, taken from `before` to `after` ends of what the walk has in flight (R106): a
SET_BAND step stands UNKNOWN, or AT_SETPOINT with its soak reloaded; a command of the walk ends, a LOAD and an EVICT with their
slot INVALID, a LOAD with CANCEL where `cancels`; a command of the operator goes on. -/
def Blocks.flightEnded (before after : Blocks) (c : Ctx) (w : Walk) (cancels : Bool) : Prop :=
  let u := before.setup
  let settingBand := w.inStep = true ∧ ∃ k, w.current = some k ∧ (c.stepRecord k).kind = some .setBand
  (∀ r, before.lot? w.lot = some r → settingBand → after.setup.thermal = match u.thermal.phase with
    | .ramping => { u.thermal with phase := .unknown }
    | .soaking => { u.thermal with phase := .atSetpoint, soak := c.fullSoak r }
    | _ => u.thermal) ∧
  (¬settingBand → after.setup.thermal = u.thermal) ∧
  ((∀ x o, u.inFlight = some (x, o) → o = .operator) →
    after.setup.inFlight = u.inFlight ∧ after.setup.slots = u.slots ∧ after.ports = before.ports) ∧
  ∀ x o, u.inFlight = some (x, o) → o ≠ .operator → after.setup.inFlight = none ∧
    match x with
    | .load n _ => (1 ≤ n → n ≤ u.slots.length → after.setup.slotState n = .invalid) ∧ after.ports =
        if cancels then { before.ports with toTester := before.ports.toTester ++ [.cancel n] } else before.ports
    | .evict n => (1 ≤ n → n ≤ u.slots.length → after.setup.slotState n = .invalid) ∧ after.ports = before.ports
    | .select _ | .check => after.setup.slots = u.slots ∧ after.ports = before.ports

/-! ## Invariants -/

/-- A value lies in a range. -/
abbrev within (lo hi n : Nat) : Prop := lo ≤ n ∧ n ≤ hi

/-- An insertion of a recipe lies in the ranges of R189. -/
abbrev RecipeInsertion.inRange (i : RecipeInsertion) : Prop :=
  within 1 4095 i.program ∧ within 100 65535 i.nominalMs ∧ i.soakMinutes ≤ 60 ∧ ∀ n ∈ i.chainHead, n < stepCount

/-- A recipe lies in the ranges of R189. -/
abbrev Recipe.inRange (r : Recipe) : Prop :=
  within 1 65535 r.product ∧ within 1 63 r.packageClass ∧ within 1 4 r.route.length ∧
    (∀ i ∈ r.route, RecipeInsertion.inRange i) ∧ r.goodBins ≠ [] ∧ (∀ b ∈ r.goodBins, within 1 15 b) ∧ r.yieldLimit ≤ 1000 ∧
    within 1 4095 r.minSample ∧ r.binLimits.length ≤ 4 ∧ (∀ l ∈ r.binLimits, within 1 15 l.bin ∧ within 1 1000 l.permille) ∧
    r.spreadLimit ≤ 1000 ∧ within 1 4095 r.siteMinSample ∧ r.runLimit ≤ 255

/-- A step record lies in the ranges of R94 and R189; one of no kind has estimate 0. -/
abbrev StepRecord.inRange (st : StepRecord) : Prop :=
  (∀ k ∈ st.kind, st.param ≤ paramLimit k) ∧ (st.kind = none → st.estimate = 0) ∧ st.estimate ≤ 65535 ∧
    within 1 65535 st.timeout ∧ ∀ n ∈ st.next, n < stepCount

/-- The working copy lies in the ranges of R189, its recipes have different product codes, and every link of a chain
names a step record or END (R188). -/
abbrev WorkingCopy.inRange (w : WorkingCopy) : Prop :=
  (w.bitRate = 125 ∨ w.bitRate = 250 ∨ w.bitRate = 500) ∧ within 1 10 w.bidWindow ∧ within 2 30 w.acceptTimeout ∧
    within 10 240 w.arrivalTimeout ∧ within 5 600 w.reofferInterval ∧ within 1 15 w.attemptLimit ∧
    within 5 60 w.releaseWindow ∧ within 2 30 w.rollcallWindow ∧ within 1 60 w.rejoinInterval ∧
    within 2 30 w.remoteTimeout ∧ w.filters.length = 4 ∧ within 1 8 w.sitesFitted ∧ within 1 w.sitesFitted w.minSites ∧
    within 1 4 w.slotCount ∧ w.transition.length = 9 ∧ w.recipes.length ≤ 24 ∧ (∀ r ∈ w.recipes, Recipe.inRange r) ∧
    (w.recipes.map (·.product)).Nodup ∧ w.steps.length = stepCount ∧ ∀ st ∈ w.steps, StepRecord.inRange st

/-- The floor clock is in its range, and a part that runs has a station number and a working copy in range (R2, R190,
R191). -/
abbrev State.sound (s : State) : Prop :=
  s.clock < Config.clockEnd ∧ (s.imageKept = true → WorkingCopy.inRange s.image) ∧
    (s.run = .running → s.imageKept = true ∧ strapsOk s.straps = true)

/-- No collection of the part holds more than the manual gives it places for (R1, R6, R24, R56, R128, R156, R159, R175,
R178, R187). -/
abbrev Blocks.withinLimits (b : Blocks) : Prop :=
  b.lots.length + b.bids.length ≤ Config.lotCapacity ∧ b.bids.length ≤ Config.bidCapacity ∧
    b.link.slots.length = Config.transmitSlots ∧ b.family.entries.length ≤ Config.familyCapacity ∧
    b.family.clearDue.length ≤ Config.clearDueCapacity ∧ b.release.objections.length ≤ Config.objectionCapacity ∧
    b.release.ring.length ≤ Config.ringCapacity ∧ b.td.timerRing.length ≤ Config.timerCapacity ∧
    b.op.notices.length ≤ Config.noticeCapacity ∧ b.op.overflowCount ≤ 255

/-- The error counters are in range, the link state is the one they stand for, a block has at most one slot request, and a
station that is WITHDRAWN holds no frame and no slot request (R29, R34, R35, R37). -/
abbrev LinkCtl.sound (l : LinkCtl) : Prop :=
  l.txErr ≤ 255 ∧ l.rxErr ≤ 255 ∧ l.state = linkStateOf l.txErr l.rxErr ∧ (l.requests.map (·.1)).Nodup ∧
    (l.state = .withdrawn → (∀ x ∈ l.slots, x = none) ∧ l.requests = [])

/-- What no settling changes of a lot record: its identity, what it has been through, its transfer marks; its holds only
grow. -/
structure LotRecord.SameLot (r r' : LotRecord) : Prop where
  lot : r'.lot = r.lot
  product : r'.product = r.product
  family : r'.family = r.family
  priority : r'.priority = r.priority
  entryQty : r'.entryQty = r.entryQty
  route : r'.route = r.route
  nextInsertion : r'.nextInsertion = r.nextInsertion
  summaries : r'.summaries = r.summaries
  disposedHolds : r'.disposedHolds = r.disposedHolds
  arrival : r'.arrival = r.arrival
  takenFrom : r'.takenFrom = r.takenFrom
  recallMark : r'.recallMark = r.recallMark
  attempts : r'.attempts = r.attempts
  stranded : r'.stranded = r.stranded
  collected : r'.collected = r.collected
  segmentCount : r'.segmentCount = r.segmentCount
  peer : r'.peer = r.peer
  ending : r'.ending = r.ending
  holds : r.holds <+: r'.holds

/-- The states a lot may go through as a change settles: it is offered or taken back, released or taken back, or enters the
cell from the queue (R8, R43, R45, R103, R172, R173). -/
def LotState.settlesTo (st st' : LotState) : Prop :=
  st' = st ∨ (st = .awaiting ∧ st' = .offered) ∨ (st = .offered ∧ st' = .awaiting) ∨ (st = .finished ∧ st' = .releasing) ∨
    (st = .releasing ∧ st' = .finished) ∨ (st = .queued ∧ (st' = .setup ∨ st' = .inTest))

/-- The state a lot record is in while a deadline of the kind runs against it (R4). -/
def DeadlineKind.runsIn : DeadlineKind → LotState
  | .reoffer => .awaiting
  | .bidWindow => .offered
  | .acceptTimeout => .awarded
  | .arrivalTimeout => .inbound
  | .releaseWindow => .releasing

/-- The states of the lot that has the cell (R8). -/
def LotState.inCell (st : LotState) : Bool := st == .setup || st == .inTest || st == .closing

/-- A record has the deadline of its state or none (R4), an offer state only in OFFERED (R42), and an insertion account just
while it has the cell (R9). -/
abbrev LotRecord.sound (r : LotRecord) : Prop :=
  (∀ d ∈ r.deadline, r.state = d.kind.runsIn) ∧ (r.offer.isSome = true → r.state = .offered) ∧
    (r.account.isSome = r.state.inCell)

/-- No two lot records carry one lot id, and the table stands in ascending lot id (R1), at most one lot has the cell (R8), no two
entries of the family hold list have one key (R156); each record is sound, the walk is that of the lot in SETUP (R95, R96),
and a DECLINE is due only for a lot in INBOUND (R78). -/
abbrev Blocks.tableSound (b : Blocks) : Prop :=
  (b.lots.map (·.lot)).Pairwise (· < ·) ∧
    (b.lots.filter (fun r => r.state.inCell)).length ≤ 1 ∧
    (b.family.entries.map (fun e => (e.family, e.lot))).Nodup ∧ (∀ r ∈ b.lots, r.sound) ∧
    (∀ w ∈ b.setup.walk, ∃ r ∈ b.lots, r.lot = w.lot ∧ r.state = .setup) ∧
    ∀ a ∈ b.custody.answers, a.kind = .decline → ∃ r ∈ b.lots, r.lot = a.lot ∧ r.state = .inbound

/-- At most 8 commitments stand (R6). -/
abbrev Blocks.commitmentsKept (b : Blocks) : Prop := b.commitments ≤ Config.commitmentLimit

/-- The command at the front closes a window on this station's own best bid, for a lot that is not held, whose bid record is gone:
the self-award of R61 and R64 then adds a commitment (R6; log 50). -/
def State.closesUnrecorded (s : State) : Prop :=
  ∃ (r : LotRecord) (o : OfferState) (cost : Nat), s.pending.head? = some (.bidWindowClose r.lot) ∧
    s.blocks.lot? r.lot = some r ∧ r.held = false ∧ r.offer = some o ∧ o.best = some (cost, s.straps.toNat) ∧
    ∀ q ∈ s.blocks.bids, q.lot ≠ r.lot

/-- The collections are within their limits, and the link controller and the tables are sound. -/
abbrev Blocks.sound (b : Blocks) : Prop := b.withinLimits ∧ b.link.sound ∧ b.tableSound

/-- The balance law: placed_main equals the sum of bin_count[1..15] plus void_open, void_final, in_sockets and scrapped
(R10); it lies in 0..65,535, and with it every count on the right (R9). -/
abbrev Account.balanced (a : Account) : Prop :=
  a.bins.length = 15 ∧ a.placedMain = a.bins.sum + a.voidOpen + a.voidFinal + a.inSockets + a.scrapped ∧
    a.placedMain ≤ 65535

/-- The units of a touchdown that is not yet sorted stand in in_sockets of the lot whose units are being presented (R120,
R121, R122). -/
abbrev Touchdown.counted (td : Touchdown) (b : Blocks) : Prop :=
  td.kind = .counted ∧ td.active ≠ [] ∧ ∃ r ∈ b.lots, (r.state = .inTest ∨ r.voidPassRuns = true) ∧
    r.account.any (fun a => decide (td.active.length ≤ a.inSockets)) = true

/-- Every insertion account balances, and what keeps it so: a touchdown not yet sorted has its units in in_sockets; the latch
is set while the lot in test is held (R116), so that no touchdown of it is started; and none of a lot in IN_TEST with an open
THERMAL hold, which RESUME sends back to SETUP, is in TESTING (R129, R147). -/
abbrev Blocks.accountsSound (b : Blocks) : Prop :=
  (∀ r ∈ b.lots, ∀ a ∈ r.account, a.balanced) ∧
    (∀ td ∈ b.td.touchdown, td.stage ≠ .sorting → td.counted b) ∧
    (∀ r ∈ b.lots, r.state = .inTest ∨ r.state = .closing → r.held = true → b.td.latch = true) ∧
    ∀ r ∈ b.lots, r.state = .inTest → r.hasHold .thermal = true → ∀ td ∈ b.td.touchdown, td.stage ≠ .testing

end Sys2Proof.Machine
end

