-- ==== Sys2Proof/WellFormed.lean ====
section
/-! DEFINITION. Which commands could reach the part at all: every operand fits the field that carries it
(a lot id of a frame is four bytes, a station field six bits, a number of a request at most ten digits). The
machine does not rely on it: a value that fits its field and is outside the manual's range is handled by the
rule that owns it (R184, R193, R194). -/

namespace Sys2Proof

/-- A number parameter of a request: a decimal number of at most ten digits (R184). -/
def decimalOk (n : Nat) : Bool := n < 10000000000

/-- A number that fits an unsigned field of `k` bytes (11.1). -/
def fits (k n : Nat) : Bool := n < 256 ^ k

/-- A number that fits the six-bit station field of an identifier (11.1). -/
def stationField (n : Nat) : Bool := n < 64

/-- The fields of one DOSSIER segment fit their bytes (11.1). -/
def DossierSegment.fitsFields : DossierSegment → Bool
  | .identity lot product family priority qty len next disposed count =>
    fits 4 lot && fits 2 product && fits 3 family && fits 1 priority && fits 2 qty && fits 1 len && fits 1 next &&
      fits 1 disposed && fits 1 count
  | .route lot ins =>
    fits 4 lot && ins.length == 4 && ins.all (fun p => fits 1 p.1 && fits 2 p.2)
  | .summary seg no station declared adj good rejects voidFinal scrapped =>
    decide (3 ≤ seg) && decide (seg ≤ 5) && fits 1 no && fits 1 station && fits 2 declared &&
      decide (-8388608 ≤ adj) && decide (adj < 8388608) && fits 2 good && fits 2 rejects && fits 2 voidFinal && fits 2 scrapped
  | .unnumbered key => (key == 0 || decide (5 < key)) && fits 1 key

/-- The fields of an OFFER fit their bytes (11.1): insertion and priority share one byte. -/
def OfferFields.fitsFields (o : OfferFields) : Bool :=
  fits 4 o.lot && fits 2 o.product && fits 3 o.family && decide (o.insertion < 16) && decide (o.priority < 16) &&
    fits 2 o.units && fits 1 o.packageClass && fits 1 o.band && fits 2 o.program

/-- The operands of a command fit the fields that carry them. -/
def Instr.wellFormed : Instr → Bool
  | .enter lot product qty family priority =>
    decimalOk lot && decimalOk product && decimalOk qty && decimalOk family && decimalOk priority
  | .arrive lot | .recall lot | .reoffer lot | .holdLot lot | .dispose lot _ _ => decimalOk lot
  | .preload slot program => decimalOk slot && decimalOk program
  | .evict slot => decimalOk slot
  | .siteEnable site | .siteDisable site => decimalOk site
  | .purge family lot => decimalOk family && decimalOk lot
  | .status _ lot => match lot with
    | none => true
    | some l => decimalOk l
  | .imageLoaded memory => match memory with
    | none => true
    | some bytes => decide (bytes.length ≤ 65536)
  | .frameDiscarded cls kind src => decide (cls < 4) && decide (kind < 16) && stationField src
  | .holdHeard src family lot raiser | .clearHeard src family lot raiser =>
    stationField src && fits 3 family && fits 4 lot && fits 1 raiser
  | .objectHeard src lot reason objected => stationField src && fits 4 lot && fits 1 reason && fits 1 objected
  | .awardHeard src lot winner | .recallHeard src lot winner => stationField src && fits 4 lot && fits 1 winner
  | .dossierHeard src seg => stationField src && seg.fitsFields
  | .acceptHeard src lot offerer | .takeHeard src lot offerer | .declineHeard src lot offerer =>
    stationField src && fits 4 lot && fits 1 offerer
  | .offerHeard src offer => stationField src && offer.fitsFields
  | .bidHeard src lot offerer cost => stationField src && fits 4 lot && fits 1 offerer && fits 2 cost
  | .rollcallHeard src => stationField src
  | .intentHeard src lot family => stationField src && fits 4 lot && fits 3 family
  | .shippedHeard src lot family good => stationField src && fits 4 lot && fits 3 family && fits 2 good
  | .disposeHeard src lot kind disposition requester =>
    stationField src && fits 4 lot && fits 1 kind && fits 1 disposition && fits 1 requester
  | .disposedHeard src lot kind result requester =>
    stationField src && fits 4 lot && fits 1 kind && fits 1 result && fits 1 requester
  | .reofferDeadline lot | .bidWindowClose lot | .bidRecordExpiry lot | .acceptTimeout lot | .arrivalTimeout lot
  | .releaseRetryTime lot | .releaseWindowClose lot | .shippedRetry lot => fits 4 lot
  | .loaded slot | .loadFailed slot | .cancelled slot | .evicted slot | .selected slot => fits 1 slot
  | .atTemp band => fits 1 band
  | .tdResult sequence bins => fits 1 sequence && bins.length == 8 && bins.all (fits 1)
  | .powerOn _ | .resetNAsserted | .warmReset _ | .pauseWalk | .continueWalk | .abortSetup | .startCell | .stopCell
  | .abortTd | .restart | .malformedRequest _ | .lineDiscardedBusy | .outgoingLineSent | .sendAttempt | .frameSent
  | .arbitrationLost | .transmitError _ | .receiveError | .rejoin | .rollcallRetry | .rollcallWindowEnd
  | .remoteAnswerTimeout | .stepTimeout | .selectionDeadline | .operatorCommandTimeout | .soakEnd | .kitLinesChange _
  | .kitTaken | .testerFault | .handlerFault | .faultLineDeasserted _ | .testBusyChange _ | .checkPass | .checkFail
  | .tempLost | .tdReady _ | .sorted | .tdTimeout | .lotEmpty | .portMessageDiscarded _ | .joinLine | .portLineIdle _ => true

end Sys2Proof
end

