-- ==== Sys2Proof/Certificates/Slice0/Obligations.lean ====
section
/-! DEFINITION. The statements for the provers. Each says what one command, or one shape of commands, does to the part.
`State.settled`, `State.accepted` and `State.replied` (Safety) say what follows a command; the statement
`WhatFollowsAChange` says what that can touch. -/

open Sys2Proof Sys2Proof.Machine

/-! ## The step and the clock -/

/-- The model's queue: the command at the front is taken (the block's step; log 1). -/
def Obligations.StepTakesTheFrontCommand : Prop :=
  ∀ (s : State) (c : Instr) (rest : List Instr), s.pending = c :: rest → step s = exec c { s with pending := rest }

/-- What time does to a running part: the floor clock counts (R2), the soak runs down while SOAKING (R92), the busy time
of a touchdown in TESTING grows while TEST_BUSY is active (R128), the rejoin accumulator grows while WITHDRAWN by the part of
the time for which the line stands idle, a free value of the model (R38; log 3), and nothing else changes. -/
def Obligations.ElapsedTimeMovesTheCounts : Prop :=
  ∀ (s : State) (ms : Nat), s.live = true → s.clock + ms < Config.clockEnd →
    ∃ t, s.elapse ms = t ∧ t.clock = s.clock + ms ∧
      t.blocks.setup = { s.blocks.setup with thermal := { s.blocks.setup.thermal with soak :=
        if s.blocks.setup.thermal.phase = .soaking then s.blocks.setup.thermal.soak - ms else s.blocks.setup.thermal.soak } } ∧
      t.blocks.link = { s.blocks.link with rejoinAcc :=
        if s.blocks.link.state = .withdrawn then s.blocks.link.rejoinAcc + min ms (Config.lineIdleMs s.clock ms)
        else s.blocks.link.rejoinAcc } ∧
      t.blocks.td = { s.blocks.td with touchdown := s.blocks.td.touchdown.map (fun td => { td with busy :=
        if td.stage = .testing ∧ s.pins.testBusy = s.image.busyActiveHigh then td.busy + ms else td.busy }) } ∧
      t = { s with clock := t.clock, blocks :=
        { s.blocks with setup := t.blocks.setup, link := t.blocks.link, td := t.blocks.td } }

/-- The model's choice (log 1): with no command waiting one millisecond passes, and the expiry of every time that the clock or a
count has then reached stands in the queue: the deadlines of lots (R4), release retries (R172), bid records (R59), SHIPPED and
ROLLCALL retries (R178, R165), the roll-call window, the remote answer (R154), the step and the selection (R106, R103), the
operator command (R108), the soak (R92), the kit (R93), the touchdown (R126) and the rejoin (R38). While the part does not run
the millisecond passes alone; without power nothing happens. -/
def Obligations.IdleStepPassesOneMillisecond : Prop :=
  ∀ s : State, s.pending = [] →
    (s.run = .off → step s = .next s) ∧
    (s.run ≠ .off → s.live = false → step s = .next (s.elapse 1)) ∧
    (s.live = true → ∃ q, step s = .next { s.elapse 1 with pending := q } ∧
      let b := s.blocks
      let u := s.blocks.setup
      let due := fun (t : Option Nat) => ∃ d, t = some d ∧ d ≤ (s.elapse 1).clock
      (∀ r ∈ b.lots, ∀ d, r.deadline = some d → d.time ≤ (s.elapse 1).clock →
        (match d.kind with
          | .reoffer => Instr.reofferDeadline r.lot
          | .bidWindow => Instr.bidWindowClose r.lot
          | .acceptTimeout => Instr.acceptTimeout r.lot
          | .arrivalTimeout => Instr.arrivalTimeout r.lot
          | .releaseWindow => Instr.releaseWindowClose r.lot) ∈ q) ∧
      (∀ r ∈ b.lots, due r.releaseRetry → r.state = .finished → r.held = false → b.family.holdsFamily r.family = false →
        b.link.state ≠ .withdrawn → Instr.releaseRetryTime r.lot ∈ q) ∧
      (∀ r ∈ b.bids, r.sentAt.getD r.created + 15000 ≤ (s.elapse 1).clock → Instr.bidRecordExpiry r.lot ∈ q) ∧
      (∀ e ∈ b.release.ring, e.due = true → due e.retry → Instr.shippedRetry e.lot ∈ q) ∧
      (due b.family.rollcallRetry → Instr.rollcallRetry ∈ q) ∧
      (due b.family.window → Instr.rollcallWindowEnd ∈ q) ∧
      (∀ x ∈ b.remote, due (some x.deadline) → Instr.remoteAnswerTimeout ∈ q) ∧
      (∀ w ∈ u.walk, w.inStep = true → due w.deadline → Instr.stepTimeout ∈ q) ∧
      (∀ w ∈ u.walk, w.begun = true → w.current = none → u.engine = .running ∨ u.engine = .pausing → due w.deadline →
        Instr.selectionDeadline ∈ q) ∧
      (due u.operatorDeadline → Instr.operatorCommandTimeout ∈ q) ∧
      (u.thermal.phase = .soaking → u.thermal.soak ≤ 1 → Instr.soakEnd ∈ q) ∧
      (∀ t ∈ u.kitSince, due (some (t + 50)) → Instr.kitTaken ∈ q) ∧
      (∀ t ∈ b.td.touchdown, t.stage = .testing → due t.deadline → Instr.tdTimeout ∈ q) ∧
      (b.link.state = .withdrawn → s.image.rejoinInterval * 1000 ≤ (s.elapse 1).blocks.link.rejoinAcc → Instr.rejoin ∈ q))

/-! ## Power, image, reset -/

/-- POWER_ON (R191): the floor clock starts at 0, the straps are sampled, every block is empty, and until the image has
been read nothing but a level of an input is taken (log 4). IMAGE_LOADED with a sound image and straps 1 to 62 (R191): every
block takes its power-on values (R17, R40, R111, R134, R155, R170, R181, R187), STARTED goes out, and the ROLLCALL is due, no
frame being placed before the link controller joins the line. -/
def Obligations.PowerOnAndImageStartThePart : Prop :=
  (∀ (s : State) (straps : BitVec 6), ∃ t, exec (.powerOn straps) s = .next t ∧
    t.clock = 0 ∧ t.straps = straps ∧ t.run = .loading ∧ t.imageKept = false ∧ t.pins = s.pins ∧ t.pending = s.pending ∧
    t.blocks.lots = [] ∧ t.blocks.bids = [] ∧ t.blocks.family.entries = [] ∧ t.blocks.release.ring = [] ∧
    t.blocks.op.sending = none ∧ t.feed = false ∧ ∀ c : Instr, Instr.isLevel c = false → exec c t = .next t) ∧
  ∀ (s : State) (mem : List Byte), s.run = .loading → s.pins.resetHeld = false → imageFault? (some mem) = none →
    1 ≤ s.straps.toNat → s.straps.toNat ≤ 62 →
    ∃ t, exec (.imageLoaded (some mem)) s = .next t ∧
      t.run = .running ∧ t.image = workingCopy mem ∧ t.imageKept = true ∧
      t.clock = s.clock ∧ t.straps = s.straps ∧ t.pins = s.pins ∧ t.pending = s.pending ∧
      -- lot table, dispatch unit, custody unit, hold evaluator, release unit
      t.blocks.lots = [] ∧ t.blocks.bids = [] ∧ t.blocks.custody = ⟨[], []⟩ ∧ t.blocks.remote = none ∧
      t.blocks.release = ⟨[], []⟩ ∧
      -- changeover engine
      t.blocks.setup.slots = List.replicate (workingCopy mem).slotCount ⟨.invalid, none, none⟩ ∧
      t.blocks.setup.lru = (List.range (workingCopy mem).slotCount).map (· + 1) ∧ t.blocks.setup.active = none ∧
      t.blocks.setup.inFlight = none ∧ t.blocks.setup.operatorDeadline = none ∧
      t.blocks.setup.thermal = ⟨none, .unknown, 0⟩ ∧ t.blocks.setup.engine = .idle ∧ t.blocks.setup.walk = none ∧
      -- touchdown controller
      (∀ site, 1 ≤ site → site ≤ 8 →
        t.blocks.td.site site = if site ≤ (workingCopy mem).sitesFitted then .enabled else .fittedOff) ∧
      t.blocks.td.latch = true ∧ t.feed = false ∧ t.blocks.td.touchdown = none ∧ t.blocks.td.sequence = 0 ∧
      t.blocks.td.stopMark = false ∧ t.blocks.td.timerRing = [] ∧
      -- family hold list
      t.blocks.family.entries = [] ∧ t.blocks.family.unsettled = true ∧ t.blocks.family.saturated = false ∧
      t.blocks.family.refusalMark = false ∧ t.blocks.family.clearDue = [] ∧ t.blocks.family.cursor = none ∧
      t.blocks.family.rollcallDue = true ∧ t.blocks.family.rollcallRetry = none ∧ t.blocks.family.window = none ∧
      -- link controller
      t.blocks.link.slots = List.replicate 6 none ∧ t.blocks.link.placements = 0 ∧
      t.blocks.link.requests = [] ∧ t.blocks.link.txErr = 0 ∧ t.blocks.link.rxErr = 0 ∧ t.blocks.link.state = .normal ∧
      t.blocks.link.rejoinAcc = 0 ∧ t.blocks.link.clash = false ∧ t.blocks.link.joined = false ∧
      -- operator line
      t.blocks.op.sending = some (.notice (.started s.straps.toNat (workingCopy mem).imageLength
        (workingCopy mem).recipes.length (workingCopy mem).clamped) none) ∧ t.blocks.op.notices = [] ∧
      t.blocks.op.replies = [] ∧ t.blocks.op.gathered = [] ∧ t.blocks.op.discarding = s.blocks.op.discarding

/-- The first check of R188 that fails is the cause of CONFIG_FAULT, the straps being judged after a sound image (R190,
R191); no block holds any record, and a CONFIG_FAULT notice names the cause. -/
def Obligations.FirstFailedCheckIsTheCause : Prop :=
  ∀ (s : State) (memory : Option (List Byte)) (cause : ConfigCause), s.run = .loading → s.pins.resetHeld = false →
    (match memory, cause with
      | none, .noImage => True
      | some mem, .header => headerOk mem = false
      | some mem, .sum => headerOk mem = true ∧ byteSum mem (numberAt mem 2 2) ≠ numberAt mem 4 2
      | some mem, .goodBins => headerOk mem = true ∧ byteSum mem (numberAt mem 2 2) = numberAt mem 4 2 ∧
          ∃ i < min 24 (numberAt mem 76 1), goodBinsOf (numberAt mem (77 + 57 * i + 32) 2) = []
      | some mem, .stepLink => headerOk mem = true ∧ byteSum mem (numberAt mem 2 2) = numberAt mem 4 2 ∧
          (∀ i < min 24 (numberAt mem 76 1), goodBinsOf (numberAt mem (77 + 57 * i + 32) 2) ≠ []) ∧
          ∃ n ∈ stepNexts mem ++ chainHeads mem, 48 ≤ n ∧ n ≠ 255
      | some mem, .straps => imageFault? (some mem) = none ∧ (s.straps.toNat = 0 ∨ s.straps.toNat = 63)
      | _, _ => False) →
    ∃ t, exec (.imageLoaded memory) s = .next t ∧ t.run = .configFault cause ∧
      t.blocks.lots = [] ∧ t.blocks.bids = [] ∧ t.blocks.family.entries = [] ∧ t.blocks.release.ring = [] ∧
      t.blocks.link.slots = List.replicate 6 none ∧ t.feed = false ∧
      t.blocks.op.sending = some (.notice (.configFault cause) none) ∧ t.clock = s.clock ∧ t.straps = s.straps ∧
      t.pins = s.pins ∧ t.pending = s.pending

/-- While the part does not run, or RESET_N is held, only the levels of its inputs are taken, and the operator line in
CONFIG_FAULT (R190, R192; log 20). RESET_N asserted deasserts FEED, and from then on nothing is sent or taken (R192). In
CONFIG_FAULT STATUS is answered and every other request is answered NO CONFIG_FAULT, and nothing else changes (R190). -/
def Obligations.WhatIsTakenWhileNotRunning : Prop :=
  (∀ (s : State) (c : Instr), s.live = false → Instr.isLevel c = false →
    (Instr.isTerminal c = true → s.lineOpen = false) → exec c s = .next s) ∧
  (∀ s : State, ∃ t, exec .resetNAsserted s = .next t ∧ t = { s with pins := { s.pins with resetHeld := true } } ∧
    t.feed = false ∧ ∀ c : Instr, Instr.isLevel c = false → exec c t = .next t) ∧
  ∀ (s : State) (cause : ConfigCause), s.run = .configFault cause → s.pins.resetHeld = false →
    s.blocks.op.restarting = false → s.blocks.op.replying = false →
    (∀ c : Instr, Instr.isOrder c = true → exec c s = .next (s.replied s.blocks (.no .configFault))) ∧
    ∀ subject lot, exec (.status subject lot) s = .next (s.replied s.blocks (statusReply subject lot s.ctx s.blocks))

/-- A warm reset on the release of the pin, or after the RESTART reply (R192). Of a running part: what each block keeps and what
it takes anew (R18, R41, R67, R86, R112, R135, R155, R169, R170, R181, R187). The operator line keeps the replies queued, its line
being sent is cut (log 60), a RESTART that waits for its reply is dropped (log 85), the line being gathered is discarded, what
follows of it being a new line (log 86), and RESTARTED is its first notice (the model queues it before those of the holds the
reset raises: log 17). No LINK_STATE notice is queued (log 65); the marks by which the ports ignore bytes stay (log 45). The due
answers, the entries, SATURATED, the refusal mark and the clear-due list are kept, and the emptied slots hold only what is due
anew, numbered from 1 (log 27); these where no ending or collected lot owns an entry. A local entry keeps its raiser although the
straps give another station number, which its HOLDs then carry (log 56), and a RESTART hold is raised before a FAMILY hold (log
96). Where no lot is ending besides, the setup state loses what is under way, the latch is set, and a touchdown not yet sorted is
voided into void_open, its record having no sequence, deadline and busy time in SORTING (log 47). A lot that is ending, whose
units in in_sockets are those of the touchdown that the reset voids, is removed, with LOT_END (R151, R155). `b` is the part before
what follows every change. Straps of 0 or 63 enter CONFIG_FAULT with nothing kept (R190; the slot table and the site map then are
log 71's, the ROLLCALL due mark log 94's); a CONFIG_FAULT whose image is sound is left for a start by straps of 1 to 62 (R192),
from which the kit debounce runs anew (log 49); any other stays with its notice queued anew, the line keeping its queued replies
as at any warm reset; while loading, the straps are sampled (R191). -/
def Obligations.WarmResetKeepsTheLots : Prop :=
  (∀ (s : State) (straps : BitVec 6), s.run = .running → s.pins.resetHeld = true ∨ s.blocks.op.restartReady = true →
    1 ≤ straps.toNat → straps.toNat ≤ 62 →
    ∃ (t : State) (b : Blocks), exec (.warmReset straps) s = .next { t with blocks := (b.settle t.ctx).beginLine } ∧
      t = { s with straps := straps, pins := { s.pins with resetHeld := false } } ∧
      -- the link, the dispatch unit, the hold evaluator, the release unit
      b.link.txErr = 0 ∧ b.link.rxErr = 0 ∧ b.link.state = .normal ∧ b.link.joined = false ∧ b.link.rejoinAcc = 0 ∧
      b.link.clash = false ∧ b.bids = [] ∧ b.remote = none ∧ b.custody.sendList = [] ∧ b.release.objections = [] ∧
      b.release.ring.map (fun e => (e.lot, e.family, e.good, e.time, e.due)) =
        s.blocks.release.ring.map (fun e => (e.lot, e.family, e.good, e.time, e.due)) ∧
      -- the touchdown controller
      b.td.sites = s.blocks.td.sites ∧ b.td.stopMark = false ∧ b.td.timerRing = [] ∧
      b.td.sequence = s.blocks.td.sequence ∧
      ((∀ r ∈ s.blocks.lots, r.ending = false ∧ (r.state = .inboundPending → s.blocks.ownsEntry r = false)) →
        b.td.latch = true ∧
        (∀ td, s.blocks.td.touchdown = some td → td.stage ≠ .sorting →
          b.td.touchdown = some { td with stage := .sorting, sequence := none, deadline := none, busy := 0 } ∧
          b.ports = { s.blocks.ports with toHandler := s.blocks.ports.toHandler ++ [.sort (allSites.map (fun n =>
            if td.active.contains n || (td.voidSites.map (·.1)).contains n then .void else .none))] } ∧
          ((s.blocks.lots.map (·.lot)).Nodup → ∀ r a, s.blocks.testLot? = some r → r.account = some a →
            ∃ r', b.lot? r.lot = some r' ∧ r'.account = some { a with
              inSockets := a.inSockets - td.active.length, voidOpen := a.voidOpen + td.active.length })) ∧
        ((∀ td, s.blocks.td.touchdown = some td → td.stage = .sorting) →
          b.td.touchdown = s.blocks.td.touchdown ∧ b.ports = s.blocks.ports) ∧
        -- the changeover engine
        b.setup = { s.blocks.setup with
          slots := s.blocks.setup.slots.map (fun p => if p.state = .loading then { p with state := .invalid } else p)
          inFlight := none, operatorDeadline := none, engine := .idle, walk := none, kitSince := b.setup.kitSince
          thermal := if s.blocks.setup.thermal.phase = .ramping ∨ s.blocks.setup.thermal.phase = .soaking then
            { s.blocks.setup.thermal with phase := .unknown, soak := 0 } else s.blocks.setup.thermal }) ∧
      -- the operator line
      b.op.sending = none ∧ b.op.waiting = none ∧ b.op.busyBehind = 0 ∧ b.op.restarting = false ∧ b.op.gathered = [] ∧
      b.op.tooLong = false ∧ b.op.discarding = s.blocks.op.discarding ∧
      b.op.replies = s.blocks.op.replies ++ List.replicate s.blocks.op.busyBehind (.no .busy) ∧
      b.op.notices.head? = some (.restarted s.pins.resetHeld straps.toNat) ∧
      (b.op.overflowMark = true → b.op.notices.length = 16) ∧
      (∃ n, b.op.sent = s.blocks.op.sent ++ (s.blocks.op.sending.map (fun l => SentLine.cut l n)).toList) ∧
      -- the family hold list, the due answers, the slots
      b.family.unsettled = true ∧ b.family.rollcallDue = true ∧ b.family.window = none ∧
      (∀ e ∈ b.family.entries, e.isLocal = false → e.state = .unconfirmed) ∧
      (∀ e ∈ b.family.entries, e.isLocal = true → e.holdDue = true) ∧
      ((∀ r ∈ s.blocks.lots, r.ending = true ∨ r.state = .inboundPending → s.blocks.ownsEntry r = false) →
        b.family = { s.blocks.family with
          entries := s.blocks.family.entries.map (fun e =>
            if e.isLocal then { e with holdDue := true } else { e with state := .unconfirmed })
          unsettled := true, rollcallDue := true, rollcallRetry := b.family.rollcallRetry, window := none, cursor := none } ∧
        (∀ a ∈ b.custody.answers, a ∈ s.blocks.custody.answers) ∧
        ((∀ r ∈ s.blocks.lots, r.ending = true ∨ r.state = .inboundPending → ∀ a ∈ s.blocks.custody.answers, a.lot ≠ r.lot) →
          b.custody.answers = s.blocks.custody.answers) ∧
        b.link.placements = (b.link.slots.filter (·.isSome)).length ∧
        (b.link.requests = [] ∨ ∀ x ∈ b.link.slots, x ≠ none) ∧
        ∀ x ∈ b.link.slots, ∀ f ∈ x, f.onWire = false ∧ f.cancelMark = false ∧ f.placement ≤ b.link.placements ∧
          match f.frame.data with
          | .hold family lot raiser => raiser = straps.toNat ∧
              ∃ e ∈ s.blocks.family.entries, e.isLocal = true ∧ e.family = family ∧ e.lot = lot
          | .clear family lot raiser => raiser = straps.toNat ∧ (family, lot) ∈ s.blocks.family.clearDue
          | .shipped lot family good => ∃ e ∈ s.blocks.release.ring,
              e.due = true ∧ e.lot = lot ∧ e.family = family ∧ e.good = good
          | .accept .. | .take .. | .decline .. | .recall .. | .object .. => ∃ a ∈ s.blocks.custody.answers, f.frame = a.frame
          | .rollcall => True
          | .award l _ => ∃ r ∈ s.blocks.lots, r.lot = l ∧ r.awardDue = true ∧ r.state ≠ .awarded ∧ r.state ≠ .queued
          | _ => False) ∧
      -- the lot records
      (∀ r ∈ b.lots, r.state ≠ .offered ∧ r.state ≠ .awarded ∧ r.state ≠ .inboundPending ∧ r.state ≠ .setup ∧
        r.state ≠ .releasing ∧ r.releaseRetry = none) ∧
      (∀ r ∈ b.lots, ∃ r' ∈ s.blocks.lots, r'.lot = r.lot ∧ r'.product = r.product ∧ r'.family = r.family ∧
        r'.route = r.route ∧ r'.nextInsertion = r.nextInsertion ∧ r'.summaries = r.summaries ∧ r'.attempts = r.attempts ∧
        r'.arrival = r.arrival ∧ r'.takenFrom = r.takenFrom ∧ r'.recallMark = r.recallMark ∧ r'.stranded = r.stranded) ∧
      ((s.blocks.lots.map (·.lot)).Nodup → ∀ l r, s.blocks.lot? l = some r → r.state ≠ .inboundPending → r.ending = false →
        ∃ r', b.lot? l = some r' ∧
          r' = { r with
            state := match r.state with
              | .offered | .awarded => .awaiting
              | .setup => .queued
              | .releasing => .finished
              | st => st
            peer := if r.state = .offered ∨ r.state = .awarded then none else r.peer
            deadline := if r.state = .offered ∨ r.state = .awarded ∨ r.state = .releasing then none else r.deadline
            offer := if r.state = .offered then none else r.offer
            awardDue := if r.state = .awarded ∨ r.state = .queued then false else r.awardDue
            dossierSend := if r.state = .awarded then none else r.dossierSend
            intent := if r.state = .releasing then none else r.intent
            releaseRetry := none, account := r'.account, holds := r'.holds, disposedHolds := r'.disposedHolds } ∧
          (r.state = .setup → r'.account = none) ∧
          (r.state ≠ .setup → (∀ td, s.blocks.td.touchdown = some td → td.stage = .sorting) → r'.account = r.account) ∧
          let hold := fun (k : HoldKind) => Hold.mk k r.insertionNo s.clock .lot none []
          let inCell := r.state = .setup ∨ r.state = .inTest ∨ r.state = .closing
          (inCell → r'.hasHold .restart = true) ∧
          ((∀ x ∈ s.blocks.lots, x.ending = true ∨ x.state = .inboundPending → s.blocks.ownsEntry x = false) →
            r'.disposedHolds = r.disposedHolds ∧
            r'.holds = r.holds ++ (if inCell ∧ r.hasHold .restart = false then [hold .restart] else []) ++
              (if r.state ≠ .inbound ∧ r.hasHold .family = false ∧ s.blocks.ownsEntry r = false then [hold .family] else []))) ∧
      -- a lot that is ending
      ((s.blocks.lots.map (·.lot)).Nodup → ∀ r a, s.blocks.testLot? = some r → r.ending = true → r.account = some a →
        a.inSockets = (match s.blocks.td.touchdown with
          | some td => if td.stage = .sorting then 0 else td.active.length
          | none => 0) →
        b.lot? r.lot = none ∧ b.ports.toHandler.getLast? = some .lotEnd)) ∧
  (∀ (s : State) (straps : BitVec 6), s.run = .running → s.pins.resetHeld = true ∨ s.blocks.op.restartReady = true →
    straps.toNat = 0 ∨ straps.toNat = 63 → ∃ t, exec (.warmReset straps) s = .next t ∧ s.faultedByReset t straps .straps) ∧
  (∀ (s : State) (straps : BitVec 6) (cause : ConfigCause), s.run = .configFault cause →
    s.pins.resetHeld = true ∨ s.blocks.op.restartReady = true →
    (s.imageKept = false → ∃ t, exec (.warmReset straps) s = .next t ∧ s.faultedByReset t straps cause) ∧
    (s.imageKept = true → straps.toNat = 0 ∨ straps.toNat = 63 →
      ∃ t, exec (.warmReset straps) s = .next t ∧ s.faultedByReset t straps .straps) ∧
    (s.imageKept = true → 1 ≤ straps.toNat → straps.toNat ≤ 62 → ∃ t, exec (.warmReset straps) s = .next t ∧
      t = { s with
        straps := straps, run := .running, pins := { s.pins with resetHeld := false }
        blocks := { Blocks.powerOn s.image.slotCount s.image.sitesFitted (some s.clock) with
          op := t.blocks.op, ports := s.blocks.ports
          family := { FamilyUnit.powerOn with rollcallDue := true } } } ∧
      s.keptReplies t (.started straps.toNat s.image.imageLength s.image.recipes.length s.image.clamped))) ∧
  ∀ (s : State) (straps : BitVec 6),
    (s.pins.resetHeld = false → s.blocks.op.restartReady = false → exec (.warmReset straps) s = .next s) ∧
    (s.run = .loading → s.pins.resetHeld = true → exec (.warmReset straps) s = .next { s with
      straps := straps, pins := { s.pins with resetHeld := false } }) ∧
    (s.run = .off → s.pins.resetHeld = true → exec (.warmReset straps) s = .next { s with
      pins := { s.pins with resetHeld := false } })

/-! ## The operator line -/

/-- The lines of the operator in their turn (R183, R185, R187). A line completed while a reply is being sent waits; one completed
while another waits is discarded, and NO BUSY is owed for it behind the waiting line's reply. When a line has gone out the next
one begins, a reply before any notice; a notice begun with the overflow mark set carries the count and clears both. Once the reply
has been sent the waiting line is parsed and receives its own reply, followed by the NO BUSY replies owed. Between the RESTART
reply and its warm reset no line begins (R192). What has gone out is kept in the model's record of lines (log 11). Characters from
32 on are gathered up to the carriage return, and what they then are is what the line is parsed as; more than 80 are a line too
long, also where all of them are spaces (the model's choice, log 101). -/
def Obligations.OperatorLinesGoInTurn : Prop :=
  (∀ (o : OperatorLine) (l : List Char), o.gathered = [] → o.tooLong = false → o.discarding = false →
    (∀ ch ∈ l, 32 ≤ ch.toNat) → (l.foldl (fun o ch => (o.gather ch).1) o).gather '\r' = (o, lineCommand l)) ∧
  ∀ s : State, s.lineOpen = true →
    (∀ (c : Instr) (r : Reply), Instr.isLine c = true → s.blocks.op.restarting = false →
      s.blocks.op.sending = some (.reply r) →
      (s.blocks.op.waiting = none →
        exec c s = .next { s with blocks := { s.blocks with op := { s.blocks.op with waiting := some c } } }) ∧
      (s.blocks.op.waiting.isSome = true →
        exec c s = .next { s with blocks := { s.blocks with op := { s.blocks.op with
          busyBehind := s.blocks.op.busyBehind + 1 } } })) ∧
    (s.blocks.op.restarting = false → s.blocks.op.waiting.isSome = true → s.blocks.op.sending.isSome = true →
      exec .lineDiscardedBusy s = .next { s with blocks := { s.blocks with op := { s.blocks.op with
        busyBehind := s.blocks.op.busyBehind + 1 } } }) ∧
    (∀ (n : Notice) (k : Option Nat), s.blocks.op.sending = some (.notice n k) →
      let out := { s.blocks.op with sent := s.blocks.op.sent ++ [SentLine.whole (.notice n k)] }
      ∃ o, exec .outgoingLineSent s = .next { s with blocks := { s.blocks with op := o } } ∧
        (s.blocks.op.restartReady = true → o = { out with sending := none }) ∧
        (∀ r rs, s.blocks.op.restartReady = false → s.blocks.op.replies = r :: rs →
          o = { out with sending := some (.reply r), replies := rs }) ∧
        (∀ m ms, s.blocks.op.restartReady = false → s.blocks.op.replies = [] → s.blocks.op.notices = m :: ms →
          o = { out with
            sending := some (.notice m (if s.blocks.op.overflowMark then some s.blocks.op.overflowCount else none))
            notices := ms, overflowMark := false, overflowCount := 0 }) ∧
        (s.blocks.op.replies = [] → s.blocks.op.notices = [] → o = { out with sending := none })) ∧
    (∀ (r : Reply) (c : Instr), s.live = true → s.blocks.op.sending = some (.reply r) → s.blocks.op.replies = [] →
      s.blocks.op.restarting = false → s.blocks.op.waiting = some c → Instr.isLine c = true →
      ∃ t r', exec .outgoingLineSent s = .next t ∧ t.blocks.op.waiting = none ∧ t.blocks.op.busyBehind = 0 ∧
        t.blocks.op.sending = some (.reply r') ∧ t.blocks.op.sent = s.blocks.op.sent ++ [SentLine.whole (.reply r)] ∧
        t.blocks.op.replies = List.replicate s.blocks.op.busyBehind (.no .busy))

/-- Every request that is parsed receives exactly one reply line (R185). A refused request leaves everything but the operator line
as it was (R145, R152, R184, R185). For DISPOSE this holds while no slot request stands, which could be granted before its frame is
refused. A line that is no request, and one with a wrong number of parameters, are refused BAD_VALUE (R184). -/
def Obligations.OneReplyAndNoEffectOfARefusal : Prop :=
  (∀ (s : State) (c : Instr), s.parses = true → Instr.isLine c = true → s.blocks.op.replies = [] →
    ∃ t r, exec c s = .next t ∧ t.blocks.op.waiting = s.blocks.op.waiting ∧
      t.blocks.op.busyBehind = s.blocks.op.busyBehind ∧
      (s.blocks.op.sending = none → t.blocks.op.sending = some (.reply r) ∧ t.blocks.op.replies = []) ∧
      (∀ x, s.blocks.op.sending = some x → t.blocks.op.sending = some x ∧ t.blocks.op.replies = [r])) ∧
  ∀ (s : State), s.parses = true →
    (∀ why, exec (.malformedRequest why) s = .next (s.replied s.blocks (.no .badValue))) ∧
    (s.blocks.op.replies = [] → s.blocks.op.sending = none →
      ∀ (t : State) (c : Instr) (code : ReplyCode), Instr.isLine c = true →
        ((∀ l k d, c ≠ .dispose l k d) ∨ s.blocks.link.requests = []) →
        exec c s = .next t → t.blocks.op.sending = some (.reply (.no code)) →
        t = { s with blocks := { s.blocks with op := { s.blocks.op with sending := some (.reply (.no code)) } } })

/-- STATUS answers with a snapshot of its subject and changes nothing (R186): the table with its queue and sums, and one lot
(R16); the cell, with its bid records, setup and touchdown controller (R56, R110, R133, R189, R187); the link (R39); the family
hold list with its flags (R171); the released ring (R182). A lot id that no record has is UNKNOWN_LOT, one out of its range, or
beside another subject, BAD_VALUE. The spelling of the fields is log 44's choice, their grouping in lines log 70's, the unit of
the release retry time log 58's, the order of the bins of a BIN hold log 72's, the void sites without counts log 76's, the order of
the bid records log 88's, the word RUNNING log 92's. -/
def Obligations.StatusIsASnapshot : Prop :=
  ∀ s : State, s.parses = true →
    let b := s.blocks
    let num := fun (name : String) (n : Nat) => Machine.Field.mk name (.num n)
    let nums := fun (name : String) (l : List Nat) => Machine.Field.mk name (.nums l)
    let word := fun (name w : String) => Machine.Field.mk name (.word w)
    let flag := fun (name : String) (v : Bool) => word name (if v then "set" else "clear")
    let stepAt := fun (name : String) (o : Option Nat) => match o with | some n => num name n | none => word name "END"
    let left := fun (t : Nat) => (t - s.clock + 999) / 1000
    let since := fun (t : Nat) => (s.clock - t) / 1000
    let answers := fun (subject : StatusSubject) (lot : Option Nat) (items : List (List Machine.Field)) =>
      exec (.status (some subject) lot) s = .next (s.replied b (.status subject items))
    let refused := fun (subject : Option StatusSubject) (lot : Option Nat) (code : ReplyCode) =>
      exec (.status subject lot) s = .next (s.replied b (.no code))
    -- refusals
    refused none none .badValue ∧ (∀ subject l, subject ≠ some .lot → refused subject (some l) .badValue) ∧
    (∀ l, l = 0 ∨ 4294967295 < l → refused (some .lot) (some l) .badValue) ∧
    (∀ l, 1 ≤ l → l ≤ 4294967295 → b.lot? l = none → refused (some .lot) (some l) .unknownLot) ∧
    -- LOT
    answers .lot none (b.lots.map (fun r => [num "lot_id" r.lot, word "state" (lotStateWord r.state)]) ++
      [[nums "cell_queue" (b.queue.map (·.lot))], [num "records_plus_bid_records" (b.lots.length + b.bids.length)],
       [num "commitments" (b.bids.length + (b.lots.filter (fun r => r.state.committed)).length)]]) ∧
    (∀ l r, 1 ≤ l → l ≤ 4294967295 → b.lot? l = some r → answers .lot (some l)
      ([[num "lot_id" l, word "state" (lotStateWord r.state), num "product_code" r.product, num "family_id" r.family,
         num "priority_class" r.priority, num "entry_qty" r.entryQty, num "route_length" r.route.length,
         match r.nextInsertion with | some n => num "next_insertion" n | none => word "next_insertion" "DONE"] ++
        (r.peer.map (num "peer_station")).toList ++ (r.deadline.map (fun d => num "deadline" (left d.time))).toList ++
        (if r.state = .offered then [match r.offer.bind (·.best) with
          | some x => nums "best_bid" [x.1, x.2]
          | none => word "best_bid" "none"] else []) ++
        [num "offer_attempts" r.attempts, flag "stranded_flag" r.stranded]] ++
       (holdKinds.filterMap r.hold?).map (fun h => [word "kind" (holdKindWord h.kind), num "insertion_no" h.insertionNo,
         num "raised_time" (since h.raised), word "scope" (scopeWord h.scope)] ++
         (h.trigger.map (fun x => Machine.Field.mk "trigger_values" (.ints [x.1, x.2]))).toList ++
         (if h.bins = [] then [] else [nums "bins" h.bins])) ++
       [[num "disposed_hold_count" r.disposedHolds]] ++
       r.summaries.map (fun m => [num "insertion_no" m.insertionNo, num "station" m.station, num "declared_in_qty" m.declared,
         Machine.Field.mk "adj" (.int m.adj), num "good" m.good, num "rejects" m.rejects, num "void_final" m.voidFinal,
         num "scrapped" m.scrapped]) ++
       (r.account.map (fun a => [word "phase" (phaseWord a.phase), num "declared_in_qty" a.declared, Machine.Field.mk "adj" (.int a.adj),
         num "placed_main" a.placedMain, num "tested" a.bins.sum, num "good" (a.good (s.ctx.recipe r.product).goodBins),
         num "void_open" a.voidOpen, num "void_final" a.voidFinal, num "scrapped" a.scrapped])).toList)) ∧
    -- CELL
    answers .cell none
      ([[word "configuration_state" "RUNNING", num "station_number" s.straps.toNat, num "clamped_count" s.image.clamped]] ++
       b.bids.map (fun q => [num "lot_id" q.lot, num "offerer" q.offerer, num "cost" q.cost,
         word "status" (if q.sentAt = none then "PENDING" else "SENT")]) ++
       [word "engine_state" (engineWord b.setup.engine) :: match b.setup.walk with
         | none => []
         | some w => [num "lot_id" w.lot, stepAt "current_step" w.current] ++
           (w.current.map (fun n => stepAt "next_step" (s.ctx.stepRecord n).next)).toList ++ [num "walk_count" w.count] ++
           (w.deadline.map (fun t => num "remaining_time" (left t))).toList ++
           (w.deferred.map (fun x => word "deferred_cause" (causeWord x))).toList ++
           match w.fault with
           | some x => if b.setup.engine = .faulted then [word "fault_cause" (causeWord x.1), stepAt "faulted_step" x.2] else []
           | none => []] ++
       b.setup.slots.zipIdx.map (fun p => [num "slot" (p.2 + 1), word "state" (progStateWord p.1.state)] ++
         (p.1.program.map (num "program_id")).toList ++ (p.1.correlated.map (num "last_correlation_time")).toList) ++
       [nums "lru_order" b.setup.lru :: (b.setup.active.map (num "active_slot")).toList] ++
       (b.setup.inFlight.map (fun x => (match x.1 with
         | .load n p => [word "command" "LOAD", num "slot" n, num "program_id" p]
         | .evict n => [word "command" "EVICT", num "slot" n]
         | .select n => [word "command" "SELECT", num "slot" n]
         | .check => [word "command" "CHECK"]) ++
         [word "origin" (match x.2 with | .step => "step" | .chainEnd => "chain_end" | .operator => "operator")])).toList ++
       [(b.setup.thermal.band.map (fun x => word "band" (bandWord x))).toList ++
         [word "phase" (thermalWord b.setup.thermal.phase), num "soak_remaining" ((b.setup.thermal.soak + 999) / 1000)],
        [num "kit_taken" b.setup.kitTaken]] ++
       allSites.map (fun n => num "site" n :: match b.td.site n with
         | .fittedOff => [word "state" "FITTED_OFF"]
         | .enabled => [word "state" "ENABLED"]
         | .held reason => [word "state" "HELD", word "reason" (siteReasonWord reason)]) ++
       [[num "enabled_sites" b.td.enabledCount, num "minimum_sites" s.image.minSites],
        [flag "inhibit_latch" b.td.latch, flag "feed" s.feed, flag "stop_mark" b.td.stopMark]] ++
       (b.td.touchdown.map (fun t => [
         word "stage" (match t.stage with | .parked => "PARKED" | .testing => "TESTING" | .sorting => "SORTING"),
         word "kind" (match t.kind with | .counted => "COUNTED" | .orphan => "ORPHAN"), nums "active_sites" t.active,
         nums "void_sites" (t.voidSites.map (·.1))] ++ (t.sequence.map (num "sequence")).toList ++
         (t.deadline.map (fun d => num "deadline" (d - s.clock))).toList ++
         (if t.stage = .testing then [num "busy_time" t.busy] else []) ++ [flag "lot_empty_mark" t.lotEmptyMark])).toList ++
       [num "timer_ring_count" b.td.timerRing.length :: if 4 ≤ b.td.timerRing.length then
         [num "timer_ring_mean" (b.td.timerRing.sum / b.td.timerRing.length)] else []] ++
       (b.testLot?.map (fun r => num "lot_id" r.lot :: (r.account.map (fun a => word "phase" (phaseWord a.phase))).toList ++
         [flag "void_pass_running" r.voidPassRuns])).toList ++
       [[num "notice_overflow_count" b.op.overflowCount]]) ∧
    -- LINK
    answers .link none
      ([[num "station_number" s.straps.toNat, num "bit_rate" s.image.bitRate],
        [word "link_state" (linkStateWord b.link.state), num "tx_err" b.link.txErr, num "rx_err" b.link.rxErr]] ++
       b.link.slots.zipIdx.map (fun x => num "slot" (x.2 + 1) :: match x.1 with
         | none => [word "state" "EMPTY"]
         | some e => [word "state" (if e.onWire then "ON_WIRE" else "PENDING"),
           word "kind" (frameKindWord (frameClass e.frame.data) (frameKind e.frame.data)), num "key" (e.identifier / 64 % 256),
           num "identifier" e.identifier, num "placement_number" e.placement, flag "cancel_mark" e.cancelMark]) ++
       b.link.requests.map (fun q => [word "owner" (blockWord q.1), num "class" q.2]) ++
       (if b.link.state = .withdrawn then [[num "rejoin_accumulator" (b.link.rejoinAcc / 1000)]] else []) ++
       [[flag "station_clash_mark" b.link.clash]] ++
       s.image.filters.map (fun e => [num "value" e.value.toNat, num "mask" e.mask.toNat, flag "enabled" e.enabled])) ∧
    -- FAMILY
    answers .family none
      (b.family.entries.map (fun e => [num "family_id" e.family, num "lot_id" e.lot, num "raiser_station" e.raiser,
         flag "local_flag" e.isLocal, word "state" (entryStateWord e.state), num "time" (since e.time)] ++
         if e.isLocal then [flag "hold_due" e.holdDue] else []) ++
       [[flag "saturated" b.family.saturated, flag "unsettled" b.family.unsettled, flag "refusal_mark" b.family.refusalMark]] ++
       b.family.clearDue.map (fun k => [num "family_id" k.1, num "lot_id" k.2]) ++
       [flag "rollcall_due" b.family.rollcallDue :: (b.family.window.map (fun t => num "window" (left t))).toList ++
         [flag "cursor_walking" b.family.cursor.isSome, num "free_places" (16 - b.family.entries.length)]]) ∧
    -- RELEASED
    answers .released none
      (b.release.ring.map (fun e => [num "lot_id" e.lot, num "family_id" e.family, num "final_good" e.good,
         num "release_time" (since e.time), flag "shipped_due" e.due]) ++
       (b.lots.filter (fun r => r.state == .releasing)).map (fun r => num "lot_id" r.lot ::
         (r.intent.map (fun x => word "intent_frame" (sendWord x))).toList ++
         (r.deadline.map (fun d => num "window_time" (left d.time))).toList) ++
       (b.lots.filter (fun r => r.state == .finished && r.releaseRetry.isSome)).map (fun r => num "lot_id" r.lot ::
         (r.releaseRetry.map (fun t => num "release_retry_time" (left t))).toList) ++
       b.release.objections.map (fun o => [num "lot_id" o.lot, word "reason" (objectReasonWord o.reason),
         num "station_objected_to" o.station]))

/-! ## Lots -/

/-- ENTER (R14): the first refusal that applies, in the manual's order; else the record it makes, with the route of the local
recipe and no arrival stamp, and the FAMILY hold of a held family (R163). ARRIVE (R76): the INBOUND lot is queued with its arrival
stamp, its TAKE becomes due beside an ACCEPT that still is, and a held family puts its FAMILY hold on it (R163); a lot that is not
expected, or whose DECLINE is due (R78), is UNKNOWN_LOT, and a lot id out of range BAD_VALUE. -/
def Obligations.EnterAndArrive : Prop :=
  (∀ (s : State) (lot product qty family priority : Nat), s.parses = true →
    let inRange := 1 ≤ lot ∧ lot ≤ 4294967295 ∧ 1 ≤ qty ∧ qty ≤ 60000 ∧ 1 ≤ family ∧ family ≤ 16777215 ∧ priority ≤ 3 ∧
      1 ≤ product ∧ product ≤ 65535
    let unknown := ∀ r ∈ s.image.recipes, r.product ≠ product
    let there := (s.blocks.lot? lot).isSome = true ∨ ∃ r ∈ s.blocks.bids, r.lot = lot
    let full := 16 ≤ s.blocks.lots.length + s.blocks.bids.length
    let refused := fun code => exec (.enter lot product qty family priority) s = .next (s.replied s.blocks (.no code))
    (¬inRange → refused .badValue) ∧ (inRange → unknown → refused .unknownProduct) ∧
      (inRange → ¬unknown → there → refused .duplicate) ∧ (inRange → ¬unknown → ¬there → full → refused .full) ∧
    ∀ rec_, inRange → s.image.recipes.find? (fun r => r.product == product) = some rec_ → ¬there → ¬full →
      ∃ (r : LotRecord) (b : Blocks),
        exec (.enter lot product qty family priority) s = .next (s.accepted b (.okLot lot)) ∧
        r.lot = lot ∧ r.product = product ∧ r.family = family ∧ r.priority = priority ∧ r.entryQty = qty ∧
        r.route = rec_.route.map (fun i => ⟨i.band, i.program⟩) ∧ r.nextInsertion = some 1 ∧ r.state = .awaiting ∧
        r.peer = none ∧ r.attempts = 0 ∧ r.stranded = false ∧ r.deadline = none ∧ r.account = none ∧ r.summaries = [] ∧
        r.disposedHolds = 0 ∧ r.suppressYield = false ∧ r.suppressBins = [] ∧ r.takenFrom = none ∧ r.recallMark = none ∧
        r.arrival = none ∧
        (if s.blocks.family.holdsFamily family = true ∧
            (s.blocks.family.entries.any (fun e => e.isLocal && e.family == family && e.lot == lot)) = false then
          r.holds = [⟨.family, 1, s.clock, .lot, none, []⟩] ∧
            b = { s.blocks.note (.holdRaised lot .family .lot 1 none) with
              lots := insertBy (fun x y => decide (x.lot ≤ y.lot)) r s.blocks.lots }
        else r.holds = [] ∧ b = { s.blocks with lots := insertBy (fun x y => decide (x.lot ≤ y.lot)) r s.blocks.lots })) ∧
  (∀ (s : State) (lot : Nat), s.parses = true → lot = 0 ∨ 4294967295 < lot →
    exec (.arrive lot) s = .next (s.replied s.blocks (.no .badValue))) ∧
  ∀ (s : State) (lot : Nat), s.parses = true → 1 ≤ lot → lot ≤ 4294967295 →
    (∀ r peer, s.blocks.lot? lot = some r → r.state = .inbound → r.peer = some peer →
      (∀ a ∈ s.blocks.custody.answers, a.lot = lot → a.kind ≠ .decline ∧ a.kind ≠ .take) → r.ending = false → r.hasHold .family = false →
      ∃ b : Blocks, exec (.arrive lot) s = .next (s.accepted b (.okLot lot)) ∧
        b.custody = { s.blocks.custody with answers := s.blocks.custody.answers ++ [⟨lot, .take, peer⟩] } ∧
        b.lot? lot = some { r with
          state := .queued, deadline := none, takenFrom := some peer, peer := none, arrival := some s.clock
          holds := if s.blocks.family.holdsFamily r.family = true ∧ s.blocks.ownsEntry r = false then
            r.holds ++ [⟨.family, r.insertionNo, s.clock, .lot, none, []⟩] else r.holds } ∧
        (∀ l, l ≠ lot → b.lot? l = s.blocks.lot? l) ∧
        b = { s.blocks with lots := b.lots, custody := b.custody, op := b.op }) ∧
    ((∀ r, s.blocks.lot? lot = some r → r.state ≠ .inbound) ∨ (∃ a ∈ s.blocks.custody.answers, a.lot = lot ∧ a.kind = .decline) →
      exec (.arrive lot) s = .next (s.replied s.blocks (.no .unknownLot)))

/-- RECALL of an accepted lot that has not been taken (R80), and REOFFER of one that waits (R65). -/
def Obligations.RecallAndReoffer : Prop :=
  ∀ (s : State) (lot : Nat) (r : LotRecord), s.parses = true → 1 ≤ lot → lot ≤ 4294967295 → s.blocks.lot? lot = some r →
    (∀ peer, r.state = .outbound → r.peer = some peer → s.blocks.link.state ≠ .withdrawn →
      (∀ a ∈ s.blocks.custody.answers, a.lot ≠ lot) →
      exec (.recall lot) s = .next (s.accepted { s.blocks with
        lots := s.blocks.lots.map (fun x => if x.lot == lot then
          { x with state := .awaiting, recallMark := x.peer, peer := none, deadline := none } else x)
        custody := { s.blocks.custody with answers := s.blocks.custody.answers ++ [⟨lot, .recall, peer⟩] } } .ok)) ∧
    (r.state = .outbound → s.blocks.link.state = .withdrawn →
      exec (.recall lot) s = .next (s.replied s.blocks (.no .linkDown))) ∧
    (r.state ≠ .outbound → exec (.recall lot) s = .next (s.replied s.blocks (.no .wrongState))) ∧
    (r.state = .awaiting → exec (.reoffer lot) s = .next (s.accepted { s.blocks with
        lots := s.blocks.lots.map (fun x => if x.lot == lot then
          { x with attempts := 0, stranded := false, deadline := none } else x) } .ok)) ∧
    (r.state ≠ .awaiting → exec (.reoffer lot) s = .next (s.replied s.blocks (.no .wrongState)))

/-! ## The changeover engine's requests -/

/-- PAUSE and CONTINUE by the engine's state (R104): in IDLE and FAULTED both are refused; a PAUSE with a step in flight waits
for it, and with none it takes effect at once, a selection deadline of the chain end then being absent (the model's choice, log
43); CONTINUE in PAUSED visits the chain head that was not yet visited, the next record, or makes the chain end; in RUNNING and
PAUSING it completes a WAIT_OPERATOR step. -/
def Obligations.PauseAndContinue : Prop :=
  ∀ s : State, s.parses = true →
    let u := s.blocks.setup
    (u.engine = .idle → exec .pauseWalk s = .next (s.replied s.blocks (.no .notActive)) ∧
      exec .continueWalk s = .next (s.replied s.blocks (.no .notActive))) ∧
    ∀ w : Walk, u.walk = some w →
    let waits := w.inStep = true ∧ ∃ n, w.current = some n ∧ (s.ctx.stepRecord n).kind = some .waitOperator
    let running := { s.blocks with setup := { u with engine := .running } }
    (u.engine = .faulted → exec .pauseWalk s = .next (s.replied s.blocks (.no .wrongState)) ∧
      exec .continueWalk s = .next (s.replied s.blocks (.no .wrongState))) ∧
    (u.engine = .running → w.inStep = true →
      exec .pauseWalk s = .next (s.accepted { s.blocks with setup := { u with engine := .pausing } } .ok)) ∧
    (u.engine = .running → w.inStep = false →
      exec .pauseWalk s = .next (s.accepted { s.blocks with setup := { u with
        engine := .paused, walk := some { w with deadline := none } } } .ok)) ∧
    (u.engine = .pausing ∨ u.engine = .paused → exec .pauseWalk s = .next (s.accepted s.blocks .ok)) ∧
    (u.engine = .running → ¬waits → exec .continueWalk s = .next (s.replied s.blocks (.no .wrongState))) ∧
    (u.engine = .pausing → ¬waits →
      exec .continueWalk s = .next (s.accepted { s.blocks with setup := { u with engine := .running } } .ok)) ∧
    (u.engine = .pausing → waits →
      exec .continueWalk s = .next (s.accepted { s.blocks with setup := { u with
        engine := .paused, walk := some { w with inStep := false, deadline := none } } } .ok)) ∧
    (∀ n, u.engine = .running → waits → w.current = some n →
      exec .continueWalk s = .next (s.accepted (Blocks.walkFrom s.ctx { s.blocks with setup := { u with
        walk := some { w with inStep := false, deadline := none } } } (s.ctx.stepRecord n).next) .ok)) ∧
    (∀ n, u.engine = .paused → w.begun = true → w.current = some n →
      exec .continueWalk s = .next (s.accepted (running.walkFrom s.ctx (s.ctx.stepRecord n).next) .ok)) ∧
    (u.engine = .paused → w.begun = true → w.current = none →
      exec .continueWalk s = .next (s.accepted (running.chainEnd s.ctx) .ok)) ∧
    (u.engine = .paused → w.begun = false → u.inFlight = none →
      exec .continueWalk s = .next (s.accepted (running.walkFrom s.ctx w.current) .ok)) ∧
    (u.engine = .paused → w.begun = false → u.inFlight.isSome = true →
      exec .continueWalk s = .next (s.accepted running .ok))

/-- A walk that stands at a step in flight stands at one with an estimate, whose skip test fails, its deadline the step's timeout
from now, after at most 16 records, with no fault line asserted (R97, R106; the skip tests are in `StepsAreSkippedOrBegun`); if it
faults for its length it has looked at 16 (R97); a SET_BAND step at which HANDLER_FAULT faults it leaves the thermal state UNKNOWN
(R106). At END the program must be RESIDENT and TESTER_FAULT deasserted; a slot that is not active is selected; a held lot is
waited for; an unheld one enters IN_TEST, which clears the latch, or takes a SITES hold when too few sites are ENABLED (R103,
R114, R117). -/
def Obligations.WalkStopsAtADueStep : Prop :=
  ∀ (c : Ctx) (b : Blocks) (w : Walk) (pos : Option Nat), b.setup.walk = some w → b.setup.engine = .running →
    w.inStep = false → w.deferred = none → w.fault = none → w.count ≤ 16 →
    (∀ w', (b.walkFrom c pos).setup.walk = some w' → w'.lot = w.lot ∧ w'.count ≤ 16) ∧
    (∀ w', (b.walkFrom c pos).setup.walk = some w' → w'.inStep = true →
      ∃ n, w'.current = some n ∧ (c.stepRecord n).estimate ≠ 0 ∧
        (∀ r, b.lot? w.lot = some r → stepSkips c (b.walkFrom c pos).setup r (c.stepRecord n) = false) ∧
        w'.deadline = some (c.now + (c.stepRecord n).timeout * 1000) ∧
        c.pins.testerFault = false ∧ c.pins.handlerFault = false) ∧
    (∀ w', (b.walkFrom c pos).setup.walk = some w' → (b.walkFrom c pos).setup.engine = .faulted →
      w'.inStep = false ∧ w'.deadline = none ∧ ∃ x, w'.fault = some x ∧ (x.1 = .loop → w'.count = 16) ∧
        ∀ n, x = (.handlerFault, some n) → (c.stepRecord n).kind = some .setBand →
          (b.walkFrom c pos).setup.thermal.phase = .unknown) ∧
    (∀ r, pos = none → b.lot? w.lot = some r →
      let y := b.walkFrom c none
      let atEnd := { w with current := none, begun := true, inStep := false, deadline := none, endAgain := false }
      let waiting := { b with setup := { b.setup with walk := some atEnd } }
      (b.setup.residentSlot? r.program = none → waiting.faultedFrom y atEnd .programMissing c.now) ∧
      (∀ n, b.setup.residentSlot? r.program = some n →
        (c.pins.testerFault = true → waiting.faultedFrom y atEnd .testerFault c.now) ∧
        (c.pins.testerFault = false → b.setup.active ≠ some n → b.setup.inFlight = none → y = { waiting with
          setup := { waiting.setup with
            walk := some { atEnd with deadline := some (c.now + 30000) }, inFlight := some (.select n, .chainEnd) }
          ports := { b.ports with toTester := b.ports.toTester ++ [.select n] } }) ∧
        (c.pins.testerFault = false → b.setup.active = some n → r.held = true → y = waiting) ∧
        (c.pins.testerFault = false → b.setup.active = some n → r.held = false → b.testLot? = none → b.td.touchdown = none →
          r.state = .setup → r.ending = false →
          let idle := { b.setup with engine := .idle, walk := none }
          (c.cfg.minSites ≤ b.td.enabledCount → b.rewrote y w.lot { r with state := .inTest } ∧
            y = { b with
              lots := y.lots, setup := idle
              td := { b.td with latch := if c.pins.handlerFault then b.td.latch else false } }) ∧
          (b.td.enabledCount < c.cfg.minSites → b.rewrote y w.lot { r with
              state := .inTest
              holds := [⟨.sites, r.insertionNo, c.now, .lot, some ((b.td.enabledCount : Int), (c.cfg.minSites : Int)), []⟩] } ∧
            y = { b with lots := y.lots, setup := idle, td := { b.td with latch := true }, op := y.op }))))

/-- A record that the walk visits (R94, R97 to R102): one with estimate 0 is passed over, one whose skip test passes is skipped
with its mark set, and any other is begun. Skipped are LOAD_PROGRAM with its target RESIDENT, SET_BAND with its band READY,
CONFIRM_KIT with its kit taken, and CORRELATE with the insertion's program active and correlated within the step's hours. Begun,
LOAD_PROGRAM sends LOAD for the lowest EMPTY slot, else EVICT of the oldest INVALID slot, failing that of the oldest RESIDENT one,
the insertion's own program last (an INVALID slot goes first also where it holds that program: the model's reading, log 15);
SET_BAND sends SETPOINT, or at its set point soaks, a soak of 0 completing the step; CONFIRM_KIT queues KIT_CHANGE; CORRELATE
sends CHECK, or SELECT first, or faults with PROGRAM_MISSING; WAIT_OPERATOR queues OPERATOR_WAIT. A fault line asserted then
faults the engine (R106), and so does a seventeenth record (R97). -/
def Obligations.StepsAreSkippedOrBegun : Prop :=
  ∀ (c : Ctx) (b : Blocks) (w : Walk) (r : LotRecord) (n : Nat), b.setup.walk = some w → b.setup.engine = .running →
    b.lot? w.lot = some r → w.inStep = false → w.deferred = none →
    let x := b.walkFrom c (some n)
    let u := b.setup
    let st := c.stepRecord n
    let visit := { w with current := some n, begun := true, count := w.count + 1 }
    let visited := fun (w : Walk) => { b with setup := { u with walk := some w } }
    let program := if st.param = 0 then r.program else st.param
    let band := (bandOfCode st.param).getD r.band
    let kit := if st.param = 0 then (c.recipe r.product).packageClass else st.param
    let stands := fun (k : Nat) (p : ProgSlot) => 1 ≤ k ∧ u.slots[k - 1]? = some p
    let skips := match st.kind with
      | some .loadProgram => ∃ k p, stands k p ∧ p.state = .resident ∧ p.program = some program
      | some .setBand => u.thermal.band = some band ∧ u.thermal.phase = .ready
      | some .confirmKit => u.kitTaken = kit
      | some .correlate => st.param ≠ 0 ∧ ∃ k p t, u.active = some k ∧ stands k p ∧ p.state = .resident ∧
          p.program = some r.program ∧ p.correlated = some t ∧ c.now ≤ t + st.param * 3600000
      | some .waitOperator => False
      | none => True
    (stepSkips c u r st = true ↔ skips) ∧
    (w.count = 16 → ({ b with setup := { u with walk := some { w with begun := true } } } : Blocks).faultedFrom x
      { w with begun := true } .loop c.now) ∧
    (w.count < 16 → st.estimate = 0 → x = (visited visit).walkFrom c st.next) ∧
    (w.count < 16 → st.estimate ≠ 0 → skips → x = (visited { visit with
      bandMark := w.bandMark || st.kind == some .setBand, kitMark := w.kitMark || st.kind == some .confirmKit }).walkFrom c st.next) ∧
    (w.count < 16 → st.estimate ≠ 0 → ¬skips → c.pins.testerFault = true ∨ c.pins.handlerFault = true →
      (visited { visit with inStep := true }).faultedFrom x { visit with inStep := true }
        (if c.pins.testerFault then .testerFault else .handlerFault) c.now) ∧
    (w.count < 16 → st.estimate ≠ 0 → ¬skips → c.pins.testerFault = false → c.pins.handlerFault = false →
      let begun := visited { visit with inStep := true, deadline := some (c.now + st.timeout * 1000) }
      let sent := fun (cmd : TesterCmd) (m : TesterMsg) => { begun with
        setup := { begun.setup with inFlight := some (cmd, .step) }
        ports := { b.ports with toTester := b.ports.toTester ++ [m] } }
      let oldest := fun (p : Nat → Prop) (k : Nat) => ∃ pre post, u.lru = pre ++ k :: post ∧ p k ∧ ∀ j ∈ pre, ¬p j
      let invalid := fun (k : Nat) => u.slotState k = .invalid
      let resident := fun (k : Nat) => u.slotState k = .resident
      let other := fun (k : Nat) => resident k ∧ ∀ p, stands k p → p.program ≠ some r.program
      let noneEmpty := ∀ k p, stands k p → p.state ≠ .empty
      (st.kind = some .loadProgram →
        (∀ k p, stands k p → p.state = .empty → (∀ j q, stands j q → j < k → q.state ≠ .empty) →
          x = { sent (.load k program) (.load k program) with setup := { begun.setup with
            inFlight := some (.load k program, .step)
            slots := u.slots.set (k - 1) ⟨.loading, some program, if p.program = some program then p.correlated else none⟩
            lru := u.lru.filter (· != k) ++ [k], active := if u.active = some k then none else u.active } }) ∧
        (∀ k, noneEmpty → oldest invalid k → x = sent (.evict k) (.evict k)) ∧
        (∀ k, noneEmpty → (∀ j ∈ u.lru, ¬invalid j) → oldest other k → x = sent (.evict k) (.evict k)) ∧
        (∀ k, noneEmpty → (∀ j ∈ u.lru, ¬invalid j ∧ ¬other j) → oldest resident k → x = sent (.evict k) (.evict k))) ∧
      (st.kind = some .setBand →
        let soak := c.fullSoak r
        let atSet := u.thermal.band = some band ∧ u.thermal.phase = .atSetpoint
        (¬atSet → x = { begun with
          setup := { begun.setup with thermal := ⟨some band, .ramping, 0⟩ }
          ports := { b.ports with toHandler := b.ports.toHandler ++ [.setpoint band] } }) ∧
        (atSet → soak ≠ 0 → x = { begun with setup := { begun.setup with thermal := ⟨some band, .soaking, soak⟩ } }) ∧
        (atSet → soak = 0 → x = ({ b with setup := { u with
          thermal := ⟨some band, .ready, 0⟩, walk := some { visit with bandMark := true, deadline := none } } } : Blocks).walkFrom c st.next)) ∧
      (st.kind = some .confirmKit → x = begun.note (.kitChange r.lot kit u.kitTaken)) ∧
      (st.kind = some .correlate →
        ((∀ k p, stands k p → p.state = .resident → p.program ≠ some r.program) →
          begun.faultedFrom x { visit with inStep := true, deadline := some (c.now + st.timeout * 1000) } .programMissing c.now) ∧
        (∀ k p, stands k p → p.state = .resident → p.program = some r.program →
            (∀ j q, stands j q → j < k → ¬(q.state = .resident ∧ q.program = some r.program)) →
          (u.active = some k → x = sent .check .check) ∧ (u.active ≠ some k → x = sent (.select k) (.select k)))) ∧
      (st.kind = some .waitOperator → x = begun.note (.operatorWait r.lot n)))

/-- ABORT (R105): the walk is dropped with what it has in flight, the lot returns to the queue without its account and with
an OPERATOR hold. A LOAD is cancelled and leaves its slot INVALID, an EVICT leaves a RESIDENT slot INVALID, a SELECT or CHECK just
ends, and an operator command stays in flight; a ramp leaves UNKNOWN, and a soak AT_SETPOINT with the full soak loaded anew. A
touchdown still in SORTING is left as it is (the model's choice, log 89). -/
def Obligations.AbortReturnsTheLotToTheQueue : Prop :=
  ∀ (s : State) (w : Walk) (r : LotRecord), s.parses = true → s.blocks.setup.engine ≠ .idle →
    s.blocks.setup.walk = some w → s.blocks.lot? w.lot = some r → r.ending = false →
    ∃ b : Blocks, exec .abortSetup s = .next (s.accepted b .ok) ∧
      b.setup.engine = .idle ∧ b.setup.walk = none ∧
      b.lot? w.lot = some { r with
        state := .queued, account := none
        holds := if r.hasHold .operator then r.holds else r.holds ++ [⟨.operator, r.insertionNo, s.clock, .lot, none, []⟩] } ∧
      (∀ l, l ≠ w.lot → b.lot? l = s.blocks.lot? l) ∧
      (∀ n p o, s.blocks.setup.inFlight = some (.load n p, o) → o ≠ .operator →
        b.setup.inFlight = none ∧ b.ports.toTester = s.blocks.ports.toTester ++ [.cancel n] ∧
        (1 ≤ n → n ≤ s.blocks.setup.slots.length → b.setup.slotState n = .invalid)) ∧
      (let u := s.blocks.setup
       (∀ n p, u.inFlight = some (.evict n, .step) → 1 ≤ n → u.slots[n - 1]? = some p →
         b.setup.inFlight = none ∧ b.ports = s.blocks.ports ∧
         (p.state = .resident → b.setup.slots = u.slots.set (n - 1) { p with state := .invalid } ∧
           b.setup.active = if u.active = some n then none else u.active) ∧
         (p.state ≠ .resident → b.setup.slots = u.slots ∧ b.setup.active = u.active)) ∧
       (∀ n o, o ≠ .operator → u.inFlight = some (.select n, o) ∨ u.inFlight = some (.check, o) →
         b.setup.inFlight = none ∧ b.ports = s.blocks.ports ∧ b.setup.slots = u.slots ∧ b.setup.active = u.active ∧
         b.setup.lru = u.lru) ∧
       (∀ cmd, u.inFlight = some (cmd, .operator) ∨ u.inFlight = none → b.setup.inFlight = u.inFlight ∧
         b.setup.operatorDeadline = u.operatorDeadline ∧ b.ports = s.blocks.ports ∧ b.setup.slots = u.slots ∧
         b.setup.active = u.active ∧ b.setup.lru = u.lru) ∧
       b.setup.thermal.soak = (if u.thermal.phase = .soaking then (s.ctx.lotInsertion r).soakMinutes * 60000
         else u.thermal.soak)) ∧
      b.setup.thermal.band = s.blocks.setup.thermal.band ∧
      (b.setup.thermal.phase = match s.blocks.setup.thermal.phase with
        | .ramping => .unknown
        | .soaking => .atSetpoint
        | p => p) ∧
      b.setup.kitTaken = s.blocks.setup.kitTaken ∧
      b = { s.blocks with lots := b.lots, setup := b.setup, op := b.op, ports := b.ports }

/-- PRELOAD and EVICT (R108, R109): the command goes to the tester with the operator timeout running, and the slot is INVALID
until it is answered. It does so also while TESTER_FAULT stands asserted (the model's choice, log 98). -/
def Obligations.PreloadAndEvict : Prop :=
  ∀ (s : State) (slot program : Nat) (p : ProgSlot), s.parses = true → s.blocks.setup.engine = .idle →
    s.blocks.testLot? = none → (∀ cmd o, s.blocks.setup.inFlight = some (cmd, o) → o ≠ .operator) →
    1 ≤ slot → s.blocks.setup.slots[slot - 1]? = some p →
    (p = ⟨.empty, none, none⟩ → 1 ≤ program → program ≤ 4095 → s.blocks.setup.resident program = false →
      ∃ b : Blocks, exec (.preload slot program) s = .next (s.accepted b .ok) ∧
        b.ports.toTester = s.blocks.ports.toTester ++ [.load slot program] ∧
        b.setup.inFlight = some (.load slot program, .operator) ∧ b.setup.operatorDeadline = some (s.clock + 900000) ∧
        b.setup.slots = s.blocks.setup.slots.set (slot - 1) ⟨.invalid, some program, none⟩ ∧
        b.setup.lru = s.blocks.setup.lru.filter (· != slot) ++ [slot] ∧
        b.setup.thermal = s.blocks.setup.thermal ∧ b.setup.engine = .idle ∧ b.setup.walk = s.blocks.setup.walk ∧
        b.setup.kitTaken = s.blocks.setup.kitTaken ∧
        b = { s.blocks with setup := b.setup, ports := { s.blocks.ports with toTester := b.ports.toTester } }) ∧
    (p.state ≠ .empty → 1 ≤ program → program ≤ 4095 →
      exec (.preload slot program) s = .next (s.replied s.blocks (.no .slotNotEmpty))) ∧
    (p.state ≠ .empty →
      ∃ b : Blocks, exec (.evict slot) s = .next (s.accepted b .ok) ∧
        b.ports.toTester = s.blocks.ports.toTester ++ [.evict slot] ∧
        b.setup.inFlight = some (.evict slot, .operator) ∧ b.setup.operatorDeadline = some (s.clock + 900000) ∧
        b.setup.slots = s.blocks.setup.slots.set (slot - 1) ⟨.invalid, p.program, p.correlated⟩ ∧
        b.setup.lru = s.blocks.setup.lru ∧
        b.setup.active = (if s.blocks.setup.active = some slot then none else s.blocks.setup.active) ∧
        b.setup.thermal = s.blocks.setup.thermal ∧ b.setup.engine = .idle ∧ b.setup.walk = s.blocks.setup.walk ∧
        b.setup.kitTaken = s.blocks.setup.kitTaken ∧
        b = { s.blocks with setup := b.setup, ports := { s.blocks.ports with toTester := b.ports.toTester } }) ∧
    (p.state = .empty → exec (.evict slot) s = .next (s.replied s.blocks (.no .wrongState)))

/-! ## The touchdown controller's requests -/

/-- START clears the latch of an unheld lot in test with no fault line asserted, and a parked touchdown starts with the next
sequence number (R119, R117, R123); STOP sets it, and STOPPED is queued at once unless a touchdown is in TESTING or SORTING
(R119). -/
def Obligations.StartAndStopMoveTheLatch : Prop :=
  ∀ s : State, s.parses = true →
    (∀ r, s.blocks.testLot? = some r → r.held = false → s.pins.testerFault = false → s.pins.handlerFault = false →
      ((∀ t, s.blocks.td.touchdown = some t → t.stage ≠ .parked) →
        exec .startCell s = .next (s.accepted { s.blocks with td := { s.blocks.td with
          latch := false, stopMark := false } } .ok)) ∧
      (∀ t, s.blocks.td.touchdown = some t → t.stage = .parked →
        exec .startCell s = .next (s.accepted { s.blocks with
          td := { s.blocks.td with
            latch := false, stopMark := false, sequence := (s.blocks.td.sequence + 1) % 256
            touchdown := some { t with
              stage := .testing, sequence := some ((s.blocks.td.sequence + 1) % 256), busy := 0
              deadline := some (s.clock + 4 * (s.ctx.insertion r.product r.insertionNo).nominalMs) } }
          ports := { s.blocks.ports with toTester := s.blocks.ports.toTester ++
            [.tdStart ((s.blocks.td.sequence + 1) % 256) t.active] } } .ok))) ∧
    (s.blocks.testLot? = none → exec .startCell s = .next (s.replied s.blocks (.no .notActive))) ∧
    (∀ r, s.blocks.testLot? = some r → r.held = true → exec .startCell s = .next (s.replied s.blocks (.no .wrongState))) ∧
    (∀ r, s.blocks.testLot? = some r → r.held = false → s.pins.testerFault = true ∨ s.pins.handlerFault = true →
      exec .startCell s = .next (s.replied s.blocks (.no .busy))) ∧
    (s.blocks.td.stopMark = false → s.blocks.td.moving = false →
      exec .stopCell s = .next (s.accepted ({ s.blocks with td := { s.blocks.td with latch := true } }.note .stopped) .ok)) ∧
    (s.blocks.td.stopMark = false → s.blocks.td.moving = true →
      exec .stopCell s = .next (s.accepted { s.blocks with td := { s.blocks.td with latch := true, stopMark := true } } .ok)) ∧
    (s.blocks.td.stopMark = true →
      exec .stopCell s = .next (s.accepted { s.blocks with td := { s.blocks.td with latch := true } } .ok))

/-- ABORT_TD and the touchdown timeout void the units of the touchdown: they leave in_sockets for void_open in the main pass
and for void_final in the void pass, and SORT names VOID for every site that holds a unit (R126, R120). A timeout whose deadline
is past is taken late, at the present clock (the model's choice, log 2); in SORTING the record's sequence, deadline and busy time
have ended (log 47). -/
def Obligations.AbortVoidsTheUnits : Prop :=
  ∀ (s : State) (r : LotRecord) (a : Account) (t : Touchdown), s.blocks.testLot? = some r → r.account = some a →
    s.blocks.td.touchdown = some t → r.ending = false →
    let account := match a.phase with
      | .main => { a with inSockets := a.inSockets - t.active.length, voidOpen := a.voidOpen + t.active.length }
      | .voidPass => { a with inSockets := a.inSockets - t.active.length, voidFinal := a.voidFinal + t.active.length }
    let sorted : List Cup := allSites.map (fun site =>
      if t.active.contains site || (t.voidSites.map (·.1)).contains site then .void else .none)
    let voided := fun (b0 : Blocks) (b : Blocks) =>
      b.lot? r.lot = some { r with account := some account } ∧ (∀ l, l ≠ r.lot → b.lot? l = b0.lot? l) ∧
      b.td = { b0.td with touchdown := some { t with stage := .sorting, sequence := none, deadline := none, busy := 0 } } ∧
      b.ports = { b0.ports with toHandler := b0.ports.toHandler ++ [.sort sorted] } ∧
      b = { b0 with lots := b.lots, td := b.td, ports := b.ports }
    (s.blocks.lots.map (·.lot)).Nodup →
    (s.parses = true → t.stage = .testing ∨ t.stage = .parked →
      ∃ b, exec .abortTd s = .next (s.accepted b .ok) ∧ voided s.blocks b) ∧
    (∀ d, s.live = true → t.stage = .testing → t.deadline = some d → d ≤ s.clock →
      ∃ b, exec .tdTimeout s = .next (s.settled (b.note .tdTimeout)) ∧ voided s.blocks b) ∧
    (s.parses = true → t.stage = .sorting → t.lotEmptyMark = false → s.blocks.td.stopMark = false →
      exec .abortTd s = .next (s.accepted { s.blocks with td := { s.blocks.td with touchdown := none } } .ok))

/-- SITE_ENABLE and SITE_DISABLE with no touchdown in flight (R114, R115). The SITE_HELD notice of a SITE_DISABLE names the lot in
IN_TEST or CLOSING, or none without one (the model's choice, log 69). SITE_ENABLE sets the site's fail_run to 0 in the account of
the lot that has the cell (R137), also of one in SETUP (the model's reading, log 77). -/
def Obligations.SiteRequestsMoveTheSite : Prop :=
  ∀ (s : State) (site : Nat), s.parses = true → 1 ≤ site → site ≤ 8 → s.blocks.td.site site ≠ .fittedOff →
    (s.blocks.td.touchdown.isSome = true →
      exec (.siteEnable site) s = .next (s.replied s.blocks (.no .busy)) ∧
      exec (.siteDisable site) s = .next (s.replied s.blocks (.no .busy))) ∧
    (s.blocks.td.touchdown = none → s.blocks.td.site site ≠ .enabled → s.blocks.cellLot? = none →
      exec (.siteEnable site) s = .next (s.accepted ({ s.blocks with td := { s.blocks.td with
        sites := s.blocks.td.sites.set (site - 1) .enabled } }.note (.siteEnabled site)) .ok)) ∧
    (∀ r a, s.blocks.td.touchdown = none → s.blocks.td.site site ≠ .enabled → s.blocks.cellLot? = some r →
      r.account = some a → (s.blocks.lots.map (·.lot)).Nodup →
      ∃ b : Blocks, exec (.siteEnable site) s = .next (s.accepted b .ok) ∧
        b.td = { s.blocks.td with sites := s.blocks.td.sites.set (site - 1) .enabled } ∧
        b.lot? r.lot = some { r with account := some { a with failRun := a.failRun.set (site - 1) 0 } } ∧
        (∀ l, l ≠ r.lot → b.lot? l = s.blocks.lot? l) ∧
        b = { s.blocks.note (.siteEnabled site) with lots := b.lots, td := b.td }) ∧
    (s.blocks.td.touchdown = none → s.blocks.td.site site = .enabled →
      exec (.siteEnable site) s = .next (s.accepted s.blocks .ok)) ∧
    (s.blocks.td.touchdown = none → s.blocks.td.site site ≠ .enabled →
      exec (.siteDisable site) s = .next (s.accepted s.blocks .ok)) ∧
    (s.blocks.td.touchdown = none → s.blocks.td.site site = .enabled → s.blocks.testLot? = none →
      exec (.siteDisable site) s = .next (s.accepted ({ s.blocks with td := { s.blocks.td with
        sites := s.blocks.td.sites.set (site - 1) (.held .operator) } }.note (.siteHeld none site .operator [])) .ok)) ∧
    (∀ r, s.blocks.td.touchdown = none → s.blocks.td.site site = .enabled → s.blocks.testLot? = some r →
      (s.blocks.lots.map (·.lot)).Nodup → r.ending = false → r.hasHold .sites = false →
      ∃ b : Blocks, exec (.siteDisable site) s = .next (s.accepted b .ok) ∧
        b.td.sites = s.blocks.td.sites.set (site - 1) (.held .operator) ∧
        (s.image.minSites ≤ b.td.enabledCount →
          b = { s.blocks.note (.siteHeld (some r.lot) site .operator []) with td := { s.blocks.td with sites := b.td.sites } }) ∧
        (b.td.enabledCount < s.image.minSites → b.td.latch = true ∧ b.lot? r.lot = some { r with
          holds := r.holds ++ [⟨.sites, r.insertionNo, s.clock, .lot,
            some ((b.td.enabledCount : Int), (s.image.minSites : Int)), []⟩] }))

/-! ## Holds and dispositions -/

/-- HOLD (R144): an OPERATOR hold is raised on a lot in custody, which sets the latch of a lot in test (R142) and abandons the
window of a lot in RELEASING, which returns to FINISHED with its INTENT cancelled (R174); the RELEASE_ABANDONED notice stands
after HOLD_RAISED (log 82), with the kind of the hold as its cause (log 57). A lot that is moving, or not here, or ending, and a
lot id out of range, are refused. -/
def Obligations.HoldRequestRaisesOperator : Prop :=
  (∀ (s : State) (lot : Nat), s.parses = true → lot = 0 ∨ 4294967295 < lot →
    exec (.holdLot lot) s = .next (s.replied s.blocks (.no .badValue))) ∧
  ∀ (s : State) (lot : Nat), s.parses = true → 1 ≤ lot → lot ≤ 4294967295 →
    (s.blocks.lot? lot = none → exec (.holdLot lot) s = .next (s.replied s.blocks (.no .unknownLot))) ∧
    ∀ r, s.blocks.lot? lot = some r →
      (r.state = .awarded ∨ r.state = .outbound → exec (.holdLot lot) s = .next (s.replied s.blocks (.no .moving))) ∧
      (r.state = .inboundPending ∨ r.state = .inbound →
        exec (.holdLot lot) s = .next (s.replied s.blocks (.no .wrongState))) ∧
      (r.ending = true → r.state ≠ .awarded → r.state ≠ .outbound →
        exec (.holdLot lot) s = .next (s.replied s.blocks (.no .wrongState))) ∧
      (r.state = .releasing → r.ending = false → r.hasHold .operator = false →
        ∃ x : Blocks, exec (.holdLot lot) s = .next (s.accepted x .ok) ∧
          s.blocks.rewrote x lot { r with
            state := .finished, intent := none, deadline := none, releaseRetry := none
            holds := r.holds ++ [⟨.operator, r.insertionNo, s.clock, .lot, none, []⟩] } ∧
          x.op = ((s.blocks.note (.holdRaised lot .operator .lot r.insertionNo none)).note
            (.releaseAbandoned lot (.hold .operator))).op ∧
          x.link.cancelled (Frame.isIntent lot) ∧
          x = { s.blocks with lots := x.lots, op := x.op, link := { s.blocks.link with slots := x.link.slots } }) ∧
      (r.state ≠ .awarded → r.state ≠ .outbound → r.state ≠ .inboundPending → r.state ≠ .inbound → r.ending = false →
        r.hasHold .operator = true → exec (.holdLot lot) s = .next (s.accepted s.blocks .ok)) ∧
      (r.state = .awaiting ∨ r.state = .offered ∨ r.state = .queued ∨ r.state = .setup ∨ r.state = .inTest ∨
          r.state = .closing ∨ r.state = .finished → r.ending = false → r.hasHold .operator = false →
        exec (.holdLot lot) s = .next (s.accepted { s.blocks.note (.holdRaised lot .operator .lot r.insertionNo none) with
          lots := s.blocks.lots.map (fun x => if x.lot == lot then
            { x with holds := x.holds ++ [⟨.operator, x.insertionNo, s.clock, .lot, none, []⟩] } else x)
          td := if r.state = .inTest ∨ r.state = .closing then { s.blocks.td with latch := true } else s.blocks.td } .ok))

/-- RESUME of an open hold (R145 to R148): the hold leaves the list, the disposed hold count rises, the kind's check is suppressed
for the rest of the insertion, and the notice names the disposition. Outside the cell, and where the lot stays held, that is all.
The last hold of a lot in test, with no fault line asserted, clears the latch, and a parked touchdown starts (R117, R123). A lot
in SETUP whose engine waits for it at the chain end enters IN_TEST as its last hold goes, or has the chain end made again where
the active slot has changed (R103; what that does is in `WalkStopsAtADueStep`). RESUME of THERMAL takes a lot in IN_TEST back to
SETUP with its account kept, its parked touchdown voided into void_open, and RESUME of SETUP takes a lot whose engine is FAULTED:
the walk begins anew at the chain head, at once or when the operator command in flight has ended (R96, R147). The last hold of
family scope, of a lot with a local entry, takes the entry off the list, its CLEAR due and its place given away, before the lot
goes on (R158, R167; a lot that is ending takes no place, log 24). The notices of one event stand in the order of the text of its
rules (log 82). -/
def Obligations.ResumeTakesTheHoldOff : Prop :=
  ∀ (s : State) (r : LotRecord) (k : HoldKind), s.parses = true → 1 ≤ r.lot → r.lot ≤ 4294967295 →
    s.blocks.lot? r.lot = some r → r.inCustody = true → r.hasHold k = true → r.ending = false → k ≠ .family → k ≠ .recon →
    (k = .sites → s.image.minSites ≤ s.blocks.td.enabledCount) →
    let resumed := fun (x : Blocks) => exec (.dispose r.lot (some k) (some .resume)) s =
      .next (s.accepted (x.note (.holdDisposed r.lot k (some .resume) .terminal)) .ok)
    let off := { s.blocks with lots := s.blocks.lots.map (fun (x : LotRecord) => if x.lot == r.lot then
      { x with
        holds := x.holds.filter (fun h => h.kind != k)
        disposedHolds := min 255 (x.disposedHolds + 1)
        suppressYield := if k = .yield then true else x.suppressYield
        suppressBins := if k = .bin then x.suppressBins ++
          (((r.hold? .bin).map (·.bins)).getD []).filter (fun n => !x.suppressBins.contains n) else x.suppressBins }
      else x) }
    let last := ∀ h ∈ r.holds, h.kind = k
    let u := s.blocks.setup
    -- the walk of the lot begins from blocks `x`, the lot standing in SETUP there
    let walks := fun (x : Blocks) =>
      let head := (s.ctx.lotInsertion r).chainHead
      let begun := { x with setup := { u with
        engine := .running, walk := some ⟨r.lot, head, false, 0, false, none, false, false, none, none, false⟩ } }
      (u.inFlight.isSome = true → resumed begun) ∧
      (u.inFlight = none → ¬last → resumed (begun.walkFrom s.ctx head)) ∧
      (u.inFlight = none → last → resumed ((begun.walkFrom s.ctx head).onUnheld s.ctx r.lot))
    -- the lot goes on from blocks `x`, the hold being off there
    let goesOn := fun (x : Blocks) => ∀ q, x.lot? r.lot = some q →
      (q.held = true ∨ q.state.inCell = false → resumed x) ∧
      (q.held = false → x.testLot? = some q →
        (s.pins.testerFault = true ∨ s.pins.handlerFault = true → resumed x) ∧
        (s.pins.testerFault = false → s.pins.handlerFault = false →
          ((∀ t, x.td.touchdown = some t → t.stage ≠ .parked) → resumed { x with td := { x.td with latch := false } }) ∧
          (∀ t, x.td.touchdown = some t → t.stage = .parked →
            let n := (x.td.sequence + 1) % 256
            resumed { x with
              td := { x.td with
                latch := false, sequence := n
                touchdown := some { t with
                  stage := .testing, sequence := some n, busy := 0
                  deadline := some (s.clock + 4 * (s.ctx.insertion q.product q.insertionNo).nominalMs) } }
              ports := { x.ports with toTester := x.ports.toTester ++ [.tdStart n t.active] } }))) ∧
      (q.held = false → q.state = .setup → x.setup.waitsAtEnd = false → resumed x) ∧
      (∀ w, q.held = false → q.state = .setup → x.setup.waitsAtEnd = true → x.setup.walk = some w → w.lot = r.lot →
        let found := x.setup.active.isSome = true ∧ x.setup.active = x.setup.residentSlot? q.program
        (w.endAgain = true ∨ ¬found → resumed (x.walkFrom s.ctx none)) ∧
        (w.endAgain = false → found → x.testLot? = none → (∀ t, x.td.touchdown = some t → t.stage ≠ .parked) →
          let idle := { x.setup with engine := .idle, walk := none }
          let low := s.pins.testerFault = false ∧ s.pins.handlerFault = false
          ∃ y : Blocks, resumed y ∧
            (s.image.minSites ≤ x.td.enabledCount → x.rewrote y r.lot { q with state := .inTest } ∧ y = { x with
              lots := y.lots, setup := idle, td := { x.td with latch := if low then false else x.td.latch } }) ∧
            (x.td.enabledCount < s.image.minSites → x.rewrote y r.lot { q with
                state := .inTest
                holds := [⟨.sites, q.insertionNo, s.clock, .lot,
                  some ((x.td.enabledCount : Int), (s.image.minSites : Int)), []⟩] } ∧
              y = { x with lots := y.lots, setup := idle, td := { x.td with latch := true }, op := y.op })))
    let stays := r.familyScope = false ∨ (∃ h ∈ r.holds, h.scope = .family ∧ h.kind ≠ k) ∨ s.blocks.ownsEntry r = false
    (stays → (k = .thermal → r.state ≠ .inTest) → (k = .setup → r.state = .setup → u.engine ≠ .faulted) → goesOn off) ∧
    (stays → k = .thermal → r.state = .inTest →
      let back := fun (f : Account → Account) => { off with lots := off.lots.map (fun (x : LotRecord) => if x.lot == r.lot then
        { x with state := .setup, account := x.account.map f } else x) }
      ((∀ t, s.blocks.td.touchdown = some t → t.stage ≠ .parked) → walks (back id)) ∧
      (∀ t, s.blocks.td.touchdown = some t → t.stage = .parked → walks { back (fun a => { a with
          inSockets := a.inSockets - t.active.length, voidOpen := a.voidOpen + t.active.length }) with
        td := { s.blocks.td with touchdown := some { t with stage := .sorting, sequence := none, deadline := none, busy := 0 } }
        ports := { s.blocks.ports with toHandler := s.blocks.ports.toHandler ++ [.sort (allSites.map (fun n =>
          if t.active.contains n || (t.voidSites.map (·.1)).contains n then .void else .none))] } })) ∧
    (stays → k = .setup → r.state = .setup → u.engine = .faulted → walks off) ∧
    (¬stays → k = .yield ∨ k = .bin → s.blocks.sound → ∃ x : Blocks, off.familyScopeEnded x s.ctx r.family r.lot ∧ goesOn x)

/-- The refusals of a disposition of a lot held here, in the order of R145. -/
def Obligations.DispositionRefusalOrder : Prop :=
  ∀ (s : State) (r : LotRecord) (k : HoldKind) (d : Disposition), s.parses = true → 1 ≤ r.lot → r.lot ≤ 4294967295 →
    s.blocks.lot? r.lot = some r → r.state.custody = true →
    let admitted := k ≠ .family ∧ (if k = .recon then d ≠ .resume else d ≠ .acceptCount)
    let moving := d = .scrap ∧ (r.state = .awarded ∨ r.state = .outbound)
    let short := k = .sites ∧ d = .resume ∧ s.blocks.td.enabledCount < s.image.minSites
    let refused := fun code => exec (.dispose r.lot (some k) (some d)) s = .next (s.replied s.blocks (.no code))
    (r.ending = true → refused .wrongState) ∧
      (r.ending = false → r.hasHold k = false → refused .notOpen) ∧
      (r.ending = false → r.hasHold k = true → k = .family → refused .notDisposable) ∧
      (r.ending = false → r.hasHold k = true → k ≠ .family → ¬admitted → refused .badValue) ∧
      (r.ending = false → r.hasHold k = true → admitted → moving → refused .moving) ∧
      (r.ending = false → r.hasHold k = true → admitted → short → refused .stillShort)

/-- ACCEPT_COUNT of a RECON hold of a lot that waits for its reconciliation (R149, R132): adj becomes placed_main minus
declared in qty, the summary is written from the account, LOT_END is sent, and the lot goes on to its next insertion, or to
FINISHED after its last. The hold goes off first, which clears the latch unless a fault line is asserted, and then the
insertion is closed (the model's choice, log 46). -/
def Obligations.AcceptCountClosesTheInsertion : Prop :=
  ∀ (s : State) (r : LotRecord) (a : Account) (h : Hold), s.parses = true → 1 ≤ r.lot → r.lot ≤ 4294967295 →
    s.blocks.lot? r.lot = some r → s.blocks.testLot? = some r → r.state = .closing → r.account = some a →
    a.voidPass ≠ .running → r.holds = [h] → h.kind = .recon → h.scope = .lot → r.ending = false →
    s.blocks.td.touchdown = none →
    0 < a.good (s.ctx.recipe r.product).goodBins →
    ∃ b : Blocks, exec (.dispose r.lot (some .recon) (some .acceptCount)) s = .next (s.accepted b .ok) ∧
      b.lot? r.lot = some { r with
        holds := [], disposedHolds := min 255 (r.disposedHolds + 1), account := none
        summaries := r.summaries ++ [⟨r.insertionNo, s.straps.toNat, a.declared, (a.placedMain : Int) - a.declared,
          a.good (s.ctx.recipe r.product).goodBins, a.bins.sum - a.good (s.ctx.recipe r.product).goodBins, a.voidFinal,
          a.scrapped⟩]
        nextInsertion := if r.route.length ≤ r.insertionNo then none else some (r.insertionNo + 1)
        state := if r.route.length ≤ r.insertionNo then .finished else .awaiting } ∧
      (∀ l, l ≠ r.lot → b.lot? l = s.blocks.lot? l) ∧
      b.ports = { s.blocks.ports with toHandler := s.blocks.ports.toHandler ++ [.lotEnd] } ∧
      b = { s.blocks with lots := b.lots, op := b.op, ports := b.ports, td := b.td } ∧
      b.td = { s.blocks.td with latch :=
        if s.pins.testerFault || s.pins.handlerFault then s.blocks.td.latch else false }

/-- SCRAP (R150, R151): a lot out of test leaves the table with its answers and its local entry, whose CLEAR becomes due. In test,
the units of a PARKED touchdown go to scrapped and are sorted SCRAP, those on void sites VOID; with no unit in the sockets then,
or with no touchdown or one in SORTING, LOT_END is sent and the lot is removed at once, a touchdown in SORTING going on as ORPHAN
with its LOT_EMPTY mark (R125, R127; log 18); with units in the sockets the lot is marked ending and stays. Its due answers go as
the SCRAP is taken (log 67), and SCRAPPED is queued then, also where the record stays (log 40).
The notices of one event stand in the order of the text of its rules (log 82). -/
def Obligations.ScrapEndsTheLot : Prop :=
  ∀ (s : State) (r : LotRecord) (k : HoldKind), s.parses = true → 1 ≤ r.lot → r.lot ≤ 4294967295 →
    s.blocks.lot? r.lot = some r → r.hasHold k = true → r.ending = false → k ≠ .family →
    (r.state = .awaiting ∨ r.state = .offered ∨ r.state = .queued ∨ r.state = .setup ∨ r.state = .finished ∨
        r.state = .releasing →
      ∃ b : Blocks, exec (.dispose r.lot (some k) (some .scrap)) s = .next (s.accepted
          ((b.note (.scrapped r.lot k r.nextInsertion)).note (.holdDisposed r.lot k (some .scrap) .terminal)) .ok) ∧
        b.lot? r.lot = none ∧ (∀ a ∈ b.custody.answers, a.lot ≠ r.lot) ∧
        (∀ l, l ≠ r.lot → (b.lot? l).isSome = (s.blocks.lot? l).isSome) ∧
        (r.state = .setup → b.setup.engine = .idle ∨ s.blocks.setup.walk = none) ∧
        (∀ e, s.blocks.family.entry? r.family r.lot = some e → e.isLocal = true →
          b.family.entry? r.family r.lot = none ∧ (r.family, r.lot) ∈ b.family.clearDue) ∧
        (s.blocks.family.entry? r.family r.lot = none → b.family.entries = s.blocks.family.entries)) ∧
    (∀ t a, s.blocks.testLot? = some r → s.blocks.td.touchdown = some t → t.stage = .testing → r.account = some a →
        0 < a.inSockets → s.blocks.family.entry? r.family r.lot = none → (s.blocks.lots.map (·.lot)).Nodup →
      ∃ b : Blocks, exec (.dispose r.lot (some k) (some .scrap)) s = .next (s.accepted
          ((b.note (.scrapped r.lot k r.nextInsertion)).note (.holdDisposed r.lot k (some .scrap) .terminal)) .ok) ∧
        b.lot? r.lot = some { r with ending := true } ∧ (∀ l, l ≠ r.lot → b.lot? l = s.blocks.lot? l) ∧
        b.td = s.blocks.td ∧ b.setup = s.blocks.setup ∧ b.family = s.blocks.family ∧ b.bids = s.blocks.bids ∧
        b.ports = s.blocks.ports ∧ ∀ x ∈ b.custody.answers, x.lot ≠ r.lot) ∧
    (s.blocks.testLot? = some r → s.blocks.family.entry? r.family r.lot = none → (s.blocks.lots.map (·.lot)).Nodup →
      -- the lot is removed at once, the handler being sent `msgs` and the touchdown going on as `next`
      let removed := fun (msgs : List HandlerMsg) (next : Option Touchdown) => ∃ b : Blocks,
        exec (.dispose r.lot (some k) (some .scrap)) s = .next (s.accepted
          ((b.note (.scrapped r.lot k r.nextInsertion)).note (.holdDisposed r.lot k (some .scrap) .terminal)) .ok) ∧
        b.lot? r.lot = none ∧ (∀ l, l ≠ r.lot → b.lot? l = s.blocks.lot? l) ∧
        (∀ x ∈ b.custody.answers, x.lot ≠ r.lot) ∧ (∀ x ∈ s.blocks.custody.answers, x.lot ≠ r.lot → x ∈ b.custody.answers) ∧
        b.td = { s.blocks.td with touchdown := next } ∧
        b.ports = { s.blocks.ports with toHandler := s.blocks.ports.toHandler ++ msgs } ∧
        b = { s.blocks with
          lots := b.lots, td := b.td, ports := b.ports, custody := b.custody
          link := { s.blocks.link with slots := b.link.slots } }
      (∀ t a, s.blocks.td.touchdown = some t → t.stage = .parked → r.account = some a → a.inSockets = t.active.length →
        removed [.sort (allSites.map (fun n => if t.active.contains n then .scrap
            else if (t.voidSites.map (·.1)).contains n then .void else .none)), .lotEnd]
          (some { t with stage := .sorting, kind := .orphan, sequence := none, deadline := none, busy := 0 })) ∧
      ((∀ a, r.account = some a → a.inSockets = 0) → (∀ t, s.blocks.td.touchdown = some t → t.stage = .sorting) →
        removed [.lotEnd] (s.blocks.td.touchdown.map (fun t => { t with kind := .orphan }))))

/-- DISPOSE for a lot that is not here (R152): refused while one is pending or while WITHDRAWN, else the DISPOSE frame takes
the lowest EMPTY slot, its placement number one above the count (the model's choice, log 27), and the request is pending until its
answer timeout, the number kept with it to tell its frame by (the model's own field, log 62). -/
def Obligations.RemoteDispositionIsSent : Prop :=
  ∀ (s : State) (lot : Nat) (k : HoldKind) (d : Disposition), s.parses = true → 1 ≤ lot → lot ≤ 4294967295 →
    (∀ r, s.blocks.lot? lot = some r → r.state = .inboundPending ∨ r.state = .inbound) →
    (s.blocks.remote.isSome = true → exec (.dispose lot (some k) (some d)) s = .next (s.replied s.blocks (.no .busy))) ∧
    (s.blocks.remote = none → s.blocks.link.state = .withdrawn →
      exec (.dispose lot (some k) (some d)) s = .next (s.replied s.blocks (.no .linkDown))) ∧
    (s.blocks.remote = none → s.blocks.link.state ≠ .withdrawn → s.blocks.link.requests = [] →
      (∀ x ∈ s.blocks.link.slots, x ≠ none) →
      exec (.dispose lot (some k) (some d)) s = .next (s.replied s.blocks (.no .busy))) ∧
    (∀ i, s.blocks.remote = none → s.blocks.link.state ≠ .withdrawn → s.blocks.link.requests = [] →
      s.blocks.link.slots[i]? = some none → (∀ j < i, ∀ x, s.blocks.link.slots[j]? = some x → x ≠ none) →
      let f := FrameData.dispose lot (holdKindCode k) (dispositionCode d) s.straps.toNat
      exec (.dispose lot (some k) (some d)) s = .next (s.accepted { s.blocks with
        link := { s.blocks.link with
          slots := s.blocks.link.slots.set i (some ⟨⟨.evaluator, lot, f⟩, 3 * 262144 + 3 * 16384 + s.straps.toNat,
            s.blocks.link.placements + 1, false, false⟩)
          placements := s.blocks.link.placements + 1 }
        remote := some ⟨lot, k, d, s.clock + s.image.remoteTimeout * 1000, s.blocks.link.placements + 1⟩ } .ok))

/-- PURGE completes for every STALE entry and removes that entry and no other (R168). Every entry of another key stays as it is;
only where the place it frees goes to the first lot in custody here that has a hold of family scope and no local entry (R167) does
an entry join the list, or another station's entry of that lot's own key become local. Whatever removes an entry, the place goes
to the lot of lowest lot id that lacks one, whose entry is CONFIRMED and HOLD due (R158, R167). A lot that is ending takes no
place (the model's choice, log 24). An entry that is not STALE, or absent, is refused. Whatever removes an entry, a roll call is
started when SATURATED is set and none is due or running (R167), its ROLLCALL placed, or placed again 1 s later (R165). -/
def Obligations.PurgeRemovesAStaleEntry : Prop :=
  ∀ (s : State) (family lot : Nat), s.parses = true → 1 ≤ family → family ≤ 16777215 → 1 ≤ lot → lot ≤ 4294967295 →
    (∀ e, s.blocks.family.entry? family lot = some e → e.state = .stale →
      ∃ b : Blocks, exec (.purge family lot) s = .next (s.accepted b .ok) ∧ s.blocks.entryRemoved b family lot ∧
        ((s.blocks.lots.map (·.lot)).Pairwise (· < ·) → s.blocks.family.entries.length ≤ 16 →
          s.blocks.placeGiven b family lot s.straps.toNat s.clock) ∧
        s.blocks.rollcallAfterRemoval b s.clock ∧ b.lotIds = s.blocks.lotIds ∧ b.release = s.blocks.release ∧ b.remote = s.blocks.remote) ∧
    (∀ e, s.blocks.family.entry? family lot = some e → e.state ≠ .stale →
      exec (.purge family lot) s = .next (s.replied s.blocks (.no .notStale))) ∧
    (s.blocks.family.entry? family lot = none →
      exec (.purge family lot) s = .next (s.replied s.blocks (.no .notStale))) ∧
    ∀ (c : Ctx) (b : Blocks) (e : FamilyEntry), b.family.entry? family lot = some e →
      b.rollcallAfterRemoval (b.removeEntry c family lot) c.now ∧
      ((b.lots.map (·.lot)).Pairwise (· < ·) → b.family.entries.length ≤ 16 →
        b.placeGiven (b.removeEntry c family lot) family lot c.own c.now)

/-- RESTART is answered OK; lines completed after it are discarded, and the warm reset waits until the reply, behind those queued
before it, has been sent (R192). What is queued behind that reply does not begin before the reset, which sends it then (R183). -/
def Obligations.RestartWaitsForItsReply : Prop :=
  (∀ s : State, s.parses = true →
    ∃ t, exec .restart s = .next t ∧ t.blocks.op.restarting = true ∧
      t.blocks.op.beforeReset = s.blocks.op.replies.length + 1 ∧
      (s.blocks.op.sending = none → s.blocks.op.replies = [] → t.blocks.op.sending = some (.reply .ok)) ∧
      (∀ c : Instr, Instr.isLine c = true → exec c t = .next t) ∧
      (∀ straps, exec (.warmReset straps) t = .next t)) ∧
  ∀ (s : State) (r : Reply), s.lineOpen = true → s.blocks.op.restarting = true → s.blocks.op.sending = some (.reply r) →
    ∃ t, exec .outgoingLineSent s = .next t ∧ t.blocks.op.beforeReset = s.blocks.op.beforeReset - 1 ∧
      t.blocks.op.sent = s.blocks.op.sent ++ [.whole (.reply r)] ∧
      (s.blocks.op.beforeReset ≤ 1 → t.blocks.op.restartReady = true ∧ t.blocks.op.sending = none ∧
        t.blocks.op.replies = s.blocks.op.replies ∧ t.blocks.op.notices = s.blocks.op.notices) ∧
      (1 < s.blocks.op.beforeReset → t.blocks.op.restartReady = false ∧
        ∀ x rest, s.blocks.op.replies = x :: rest → t.blocks.op.sending = some (.reply x) ∧ t.blocks.op.replies = rest)

/-! ## Levels, framing, fault lines -/

/-- The levels of the input lines and the framing of the ports (R93, R90, R113, R116, R128, R194): a new level of the kit lines
begins the 50 ms; TEST_BUSY and a deassertion change the level alone; a discarded message makes its port ignore what follows until
the line is idle, a gap of 20 ms that caused the discard not counting as that idle (the model's choice, log 81); CANCELLED is
ignored. The levels and the idle of a port's line are followed also while the part does not run (log 20). -/
def Obligations.LevelsAndFraming : Prop :=
  ∀ s : State,
    (∀ lines, s.live = true → s.pins.kitLines ≠ lines → exec (.kitLinesChange lines) s = .next { s with
      pins := { s.pins with kitLines := lines }
      blocks := ({ s.blocks with setup := { s.blocks.setup with kitSince := some s.clock } } : Blocks).beginLine }) ∧
    (∀ lines, s.live = false → exec (.kitLinesChange lines) s = .next { s with pins := { s.pins with kitLines := lines } }) ∧
    exec (.kitLinesChange s.pins.kitLines) s = .next s ∧
    (∀ level, exec (.testBusyChange level) s = .next { s with pins := { s.pins with testBusy := level } }) ∧
    exec (.faultLineDeasserted .tester) s = .next { s with pins := { s.pins with testerFault := false } } ∧
    exec (.faultLineDeasserted .handler) s = .next { s with pins := { s.pins with handlerFault := false } } ∧
    (∀ slot, exec (.cancelled slot) s = .next s) ∧
    (∀ p, s.takesPort p = true → exec (.portMessageDiscarded p) s = .next { s with
      blocks := (({ s.blocks with ports := match p with
        | .handler => { s.blocks.ports with handlerIgnoring := true }
        | .tester => { s.blocks.ports with testerIgnoring := true } } : Blocks).note (.portError p .format)).beginLine }) ∧
    (∀ p, exec (.portLineIdle p) s = .next { s with
      blocks := { s.blocks with ports := match p with
        | .handler => { s.blocks.ports with handlerIgnoring := false }
        | .tester => { s.blocks.ports with testerIgnoring := false } } }) ∧
    ∀ p c, s.blocks.ports.ignoring p = true → Instr.port? c = some p ∨ c = .portMessageDiscarded p → exec c s = .next s

/-- An asserting fault line sets the inhibit latch (R116). A step in flight faults with the line as its cause, its lot takes a
SETUP hold, and a SET_BAND step that a HANDLER_FAULT ends leaves the thermal state UNKNOWN; while a LOAD or EVICT of the step is
in flight the HANDLER_FAULT is deferred (R106). TESTER_FAULT ends a LOAD or EVICT of the step with its slot INVALID and no CANCEL,
and a CHECK or SELECT of it, the cause recorded being HANDLER_FAULT where that is deferred; a HANDLER_FAULT ends a CHECK or SELECT
with the step too (log 13). TESTER_FAULT voids a touchdown in TESTING (R126), whose record then has no sequence, deadline and busy
time (log 47), and ends an operator command, a preload with CANCEL, with its SLOT notice (R108, R109). The band and the soak
remaining stay as they are (log 42). A line that already stands asserted does nothing (an operator command taken then goes on, the
model's choice, log 98). The notices of one event stand in the order of the text of its rules (log 82). -/
def Obligations.FaultLinesSetTheLatch : Prop :=
  ∀ s : State, s.live = true →
    let a' := { s with pins := { s.pins with testerFault := true } }
    let h := { s with pins := { s.pins with handlerFault := true } }
    let latched := { s.blocks with td := { s.blocks.td with latch := true } }
    (s.pins.testerFault = true → exec .testerFault s = .next s) ∧
    (s.pins.handlerFault = true → exec .handlerFault s = .next s) ∧
    (s.pins.testerFault = false → s.blocks.setup.inStep = false → (∀ c, s.blocks.setup.inFlight ≠ some (c, .operator)) →
      (∀ t, s.blocks.td.touchdown = some t → t.stage ≠ .testing) → exec .testerFault s = .next (a'.settled latched)) ∧
    (s.pins.handlerFault = false → s.blocks.setup.inStep = false → exec .handlerFault s = .next (h.settled latched)) ∧
    (∀ (w : Walk) (slot program : Nat) (c : TesterCmd), s.pins.handlerFault = false → s.blocks.setup.walk = some w →
      w.inStep = true → s.blocks.setup.inFlight = some (c, .step) → c = .load slot program ∨ c = .evict slot →
      exec .handlerFault s = .next (h.settled { latched with setup := { s.blocks.setup with
        walk := some { w with deferred := some .handlerFault } } })) ∧
    -- a touchdown in TESTING
    (∀ r a t, s.pins.testerFault = false → s.blocks.setup.inStep = false → (∀ c, s.blocks.setup.inFlight ≠ some (c, .operator)) →
      s.blocks.testLot? = some r → r.account = some a → r.ending = false → s.blocks.td.touchdown = some t → t.stage = .testing →
      (s.blocks.lots.map (·.lot)).Nodup →
      ∃ x : Blocks, exec .testerFault s = .next (a'.settled x) ∧
        s.blocks.rewrote x r.lot { r with account := some (match a.phase with
          | .main => { a with inSockets := a.inSockets - t.active.length, voidOpen := a.voidOpen + t.active.length }
          | .voidPass => { a with inSockets := a.inSockets - t.active.length, voidFinal := a.voidFinal + t.active.length }) } ∧
        x.td = { s.blocks.td with
          latch := true
          touchdown := some { t with stage := .sorting, sequence := none, deadline := none, busy := 0 } } ∧
        x.ports = { s.blocks.ports with toHandler := s.blocks.ports.toHandler ++ [.sort (allSites.map (fun n =>
          if t.active.contains n || (t.voidSites.map (·.1)).contains n then .void else .none))] } ∧
        x = { s.blocks with lots := x.lots, td := x.td, ports := x.ports }) ∧
    -- an operator command in flight
    (∀ n, s.pins.testerFault = false → s.blocks.setup.walk = none →
      (∀ t, s.blocks.td.touchdown = some t → t.stage ≠ .testing) →
      let ended := { latched with setup := { s.blocks.setup with inFlight := none, operatorDeadline := none } }
      let noted := fun (x : Blocks) =>
        exec .testerFault s = .next (a'.settled (x.note (.slot n (s.blocks.setup.slotState n)
          ((s.blocks.setup.slot? n).bind (·.program)))))
      (∀ p, s.blocks.setup.inFlight = some (.load n p, .operator) →
        noted { ended with ports := { s.blocks.ports with toTester := s.blocks.ports.toTester ++ [.cancel n] } }) ∧
      (s.blocks.setup.inFlight = some (.evict n, .operator) → noted ended)) ∧
    -- a command of the step in flight
    (∀ (w : Walk) (c : TesterCmd), s.blocks.setup.walk = some w → w.inStep = true →
      s.blocks.setup.inFlight = some (c, .step) → (∀ t, s.blocks.td.touchdown = some t → t.stage ≠ .testing) →
      let ends := fun (e : Instr) (t : State) (cause : FaultCause) => ∃ x : Blocks, exec e s = .next (t.settled x) ∧
        latched.faultedFrom x w cause s.clock ∧ x.setup.inFlight = none ∧ x.ports = s.blocks.ports ∧
        ∀ n, 1 ≤ n → n ≤ s.blocks.setup.slots.length →
          ((∃ p, c = .load n p) ∨ c = .evict n → x.setup.slotState n = .invalid) ∧
          ((∀ p, c ≠ .load n p) → c ≠ .evict n → x.setup.slotState n = s.blocks.setup.slotState n)
      (s.pins.testerFault = false → ends .testerFault a' (w.deferred.getD .testerFault)) ∧
      (s.pins.handlerFault = false → w.deferred = none → c = .check ∨ (∃ n, c = .select n) →
        ends .handlerFault h .handlerFault)) ∧
    ∀ (w : Walk) (r : LotRecord), s.blocks.setup.walk = some w → w.inStep = true → s.blocks.setup.inFlight = none →
      w.deferred = none → s.blocks.lot? w.lot = some r → r.state = .setup → r.ending = false → r.hasHold .setup = false →
      (∀ t, s.blocks.td.touchdown = some t → t.stage ≠ .testing) →
      let faulted := fun (cause : FaultCause) (phase : ThermalPhase) =>
        (({ latched with
          setup := { s.blocks.setup with
            thermal := { s.blocks.setup.thermal with phase := phase }, engine := .faulted
            walk := some { w with inStep := false, deadline := none, deferred := none, fault := some (cause, w.current) } }
          lots := s.blocks.lots.map (fun x => if x.lot == w.lot then
            { x with holds := x.holds ++ [⟨.setup, x.insertionNo, s.clock, .lot, none, []⟩] } else x) } : Blocks).note
              (.setupFault w.lot cause w.current)).note (.holdRaised w.lot .setup .lot r.insertionNo none)
      (s.pins.testerFault = false →
        exec .testerFault s = .next (a'.settled (faulted .testerFault s.blocks.setup.thermal.phase))) ∧
      (s.pins.handlerFault = false → exec .handlerFault s = .next (h.settled (faulted .handlerFault
        (if w.current.bind (fun n => (s.ctx.stepRecord n).kind) = some .setBand then .unknown
          else s.blocks.setup.thermal.phase))))

/-! ## The floor link -/

/-- Joining the line, and one send attempt (R19, R21, R23, R25, R26, R30, R34, R36): as the station joins, the ROLLCALL due since
power-on is placed (R40, R170), its placement number one above the count (log 27); the attempt takes the PENDING frame of lowest
identifier, at equal identifiers the one placed first, and with a frame on the wire a further one has no effect (the model's
choice, log 26); lost arbitration and a transmit error leave the frame PENDING again, a cancelled one leaves its slot, and an
OFFER or BID among them does so in QUIET too with nothing more (told cancelled, not removed: the model's choice, log 87); the
counters move as R34 gives; an error is signalled passively in QUIET and actively otherwise, a missing acknowledgement too (log
61), and at a receive error whether the frame had been acknowledged first is a free value (log 63). An error that brings QUIET
queues LINK_STATE and removes every PENDING OFFER and BID: the lots offered return to AWAITING with a re-offer deadline, and the
bid records are dropped (R36, R45, R46, R57). An error is signalled in the state it is found in (log 61). A HOLD cancelled on the
line that leaves its slot unsent ends the cursor's wait for an answer of an earlier walk, or, its entry removed, moves the cursor
on from the place the entry had (R166; log 35). -/
def Obligations.SendAttemptsAndTheirEnds : Prop :=
  ∀ s : State, s.live = true →
    let l := s.blocks.link
    let joined := { s.blocks with link := { l with joined := true } }
    let acked : List LineSignal := if Config.ackedBeforeError s.clock l.signals.length then [.acknowledge] else []
    (l.state = .withdrawn → exec .joinLine s = .next (s.settled s.blocks)) ∧
    (l.state ≠ .withdrawn → s.blocks.family.rollcallDue = false ∨ s.blocks.family.rollcallRetry.isSome = true ∨
        s.blocks.inSlot Frame.isRollcall = true → exec .joinLine s = .next (s.settled joined)) ∧
    (∀ i, l.state ≠ .withdrawn → s.blocks.family.rollcallDue = true → s.blocks.family.rollcallRetry = none →
      s.blocks.inSlot Frame.isRollcall = false → l.freeAt i →
      exec .joinLine s = .next (s.settled (joined.placed s.straps.toNat i ⟨.family, 0, .rollcall⟩))) ∧
    (∀ i e, l.up = true → (∀ x ∈ l.slots, ∀ y ∈ x, y.onWire = false) → l.slots[i]? = some (some e) →
      (∀ j y, j ≠ i → l.slots[j]? = some (some y) →
        e.identifier < y.identifier ∨ (e.identifier = y.identifier ∧ e.placement < y.placement)) →
      exec .sendAttempt s = .next { s with
        blocks := ({ s.blocks with link := { l with slots := l.slots.set i (some { e with onWire := true }) } } : Blocks).beginLine }) ∧
    (∀ i e, l.sends i e → exec .sendAttempt s = .next { s with blocks := s.blocks.beginLine }) ∧
    ((∀ x ∈ l.slots, x = none) → exec .sendAttempt s = .next { s with blocks := s.blocks.beginLine }) ∧
    (∀ i e, l.sends i e → e.cancelMark = false → l.state ≠ .quiet →
      exec .arbitrationLost s = .next (s.settled { s.blocks with link := { l with
        slots := l.slots.set i (some { e with onWire := false }) } })) ∧
    (∀ i e, l.sends i e → e.cancelMark = true → (∀ f g r, e.frame.data ≠ .hold f g r) →
      exec .arbitrationLost s = .next (s.settled { s.blocks with link := { l with slots := l.slots.set i none } })) ∧
    (∀ i e family lot st, l.sends i e → e.cancelMark = true → e.frame.data = .hold family lot st →
      let y := { s.blocks with link := { l with slots := l.slots.set i none } }
      let at_ := fun (cu : Option Cursor) =>
        exec .arbitrationLost s = .next (s.settled { y with family := { y.family with cursor := cu } })
      (y.family.cursor = none → at_ none) ∧
      ∀ cu, y.family.cursor = some cu →
        (cu.waitsFor = some (family, lot) → at_ (some { cu with waitsFor := none })) ∧
        (cu.waitsFor ≠ some (family, lot) → cu.gone = none ∨ (cu.family, cu.lot) ≠ (family, lot) → at_ (some cu)) ∧
        (∀ n, cu.waitsFor ≠ some (family, lot) → cu.gone = some n → (cu.family, cu.lot) = (family, lot) →
          at_ (((y.family.entries.drop n).find? (fun x =>
            x.isLocal && !x.holdDue && !y.inSlot (Frame.isHoldOf x.family x.lot))).map
              (fun x => (⟨x.family, x.lot, false, none, none⟩ : Cursor))))) ∧
    (∀ i e m, l.sends i e → e.cancelMark = false → l.state ≠ .quiet → linkStateOf (min 255 (l.txErr + 6)) l.rxErr = l.state →
      exec (.transmitError m) s = .next (s.settled { s.blocks with link := { l with
        slots := l.slots.set i (some { e with onWire := false }), txErr := min 255 (l.txErr + 6)
        signals := l.signals ++ [.errorActive] } })) ∧
    (∀ i e, l.sends i e → e.cancelMark = false → l.state = .quiet → e.frame.isOfferOrBid = false → l.txErr ≤ 255 →
      linkStateOf l.txErr l.rxErr = .quiet →
      exec (.transmitError true) s = .next (s.settled { s.blocks with link := { l with
        slots := l.slots.set i (some { e with onWire := false }), signals := l.signals ++ [.errorPassive] } })) ∧
    (l.up = true → linkStateOf l.txErr (min 255 (l.rxErr + 1)) = l.state →
      exec .receiveError s = .next (s.settled { s.blocks with link := { l with
        rxErr := min 255 (l.rxErr + 1)
        signals := l.signals ++ acked ++ [if l.state = .quiet then .errorPassive else .errorActive] } })) ∧
    (l.up = true → l.state = .normal → linkStateOf l.txErr (min 255 (l.rxErr + 1)) = .warned →
      exec .receiveError s = .next (s.settled (({ s.blocks with link := { l with
        rxErr := min 255 (l.rxErr + 1), state := .warned, signals := l.signals ++ acked ++ [.errorActive] } } : Blocks).note
          (.linkState .warned l.txErr (min 255 (l.rxErr + 1)))))) ∧
    (l.up = false → exec .receiveError s = .next s) ∧
    -- an error that brings QUIET
    let pending := fun (p : Frame → Bool) => ∃ y ∈ l.slots, ∃ f ∈ y, f.onWire = false ∧ p f.frame = true
    let taken := fun (lot : Nat) => pending (Frame.isOffer lot) ∧ ∃ r, s.blocks.lot? lot = some r ∧
      (r.state = .offered ∨ r.state = .awaiting)
    let quiet := fun (c : Instr) (tx rx : Nat) (first : List LineSignal) => ∃ x : Blocks, exec c s = .next (s.settled x) ∧
      x.link = { l with
        slots := x.link.slots, state := .quiet, txErr := tx, rxErr := rx, signals := l.signals ++ first ++ [.errorActive] } ∧
      (∀ y ∈ x.link.slots, ∀ f ∈ y, f.onWire = false → f.frame.isOfferOrBid = false) ∧
      (s.blocks.op.notices.length < 16 → Notice.linkState .quiet tx rx ∈ x.op.notices) ∧
      (∀ lot r, taken lot → s.blocks.lot? lot = some r → x.lot? lot = some { r with
        state := .awaiting, offer := none, deadline := some ⟨.reoffer, s.clock + s.image.reofferInterval * 1000⟩ }) ∧
      (∀ lot, ¬pending (Frame.isOffer lot) → ¬pending (Frame.isBid lot) → x.lot? lot = s.blocks.lot? lot) ∧
      (∀ q, q ∈ x.bids ↔ q ∈ s.blocks.bids ∧ ¬pending (Frame.isBid q.lot) ∧ ¬taken q.lot) ∧
      x = { s.blocks with lots := x.lots, bids := x.bids, link := x.link, op := x.op }
    (∀ i e m, l.sends i e → e.cancelMark = false → e.frame.isOfferOrBid = false → l.state = .normal ∨ l.state = .warned →
      linkStateOf (min 255 (l.txErr + 6)) l.rxErr = .quiet → quiet (.transmitError m) (min 255 (l.txErr + 6)) l.rxErr []) ∧
    (l.up = true → l.state = .normal ∨ l.state = .warned → linkStateOf l.txErr (min 255 (l.rxErr + 1)) = .quiet →
      quiet .receiveError l.txErr (min 255 (l.rxErr + 1)) acked)

/-- A frame acknowledged and ended without error leaves its slot, tx_err falls by one, the link state with it where the counters
stand for a lower one, with its LINK_STATE notice (R35), and its owner takes the outcome (R25, R34): the OFFER's window runs from now (R45), the BID stands SENT, and the offerer's own is taken as the best when none is
or when it is lower (R57, R60), the AWARD opens the dossier, or has it STOPPED for a held lot (R63, R70), the
next segment becomes due (R70), an answer is no longer due (R84), a HOLD, a CLEAR, an objection and the SHIPPED of the ring
entry it was placed for are no longer due (R159, R175, R178), the ROLLCALL's window begins (R165), the release window runs in full
(R173). The HOLD that answers a roll call moves the answer cursor to the next local entry that is neither due nor in a slot, after
its own or from the place a removed one had; the outcome of an answer of an earlier walk only ends the wait for it (R166; log 35).
The cancel mark does not change what an OFFER and an INTENT do to their record (R30); a BID, an AWARD and a segment that were
cancelled on the wire change nothing (log 29). -/
def Obligations.FrameSentIsTakenByItsOwner : Prop :=
  ∀ (s : State) (i : Nat) (e : SlotEntry), s.live = true → s.blocks.link.sends i e →
    (let st := linkStateOf (s.blocks.link.txErr - 1) s.blocks.link.rxErr
     st = s.blocks.link.state ∨ st = .normal ∨ st = .warned) →
    let b := s.blocks.counted { s.blocks.link with
      slots := s.blocks.link.slots.set i none, txErr := s.blocks.link.txErr - 1 }
    let sent := fun (b : Blocks) => exec .frameSent s = .next (s.settled b)
    (∀ o r f, e.frame.owner = .dispatch → e.frame.data = .offer o → b.lot? o.lot = some r → r.state = .offered →
      r.offer = some f →
      ∃ x : Blocks, sent x ∧ x = { b with lots := x.lots } ∧ b.rewrote x o.lot { r with
        offer := some { f with frame := .sent }
        deadline := some ⟨.bidWindow, s.clock + s.image.bidWindow * 1000⟩ }) ∧
    (e.cancelMark = true → (∃ lot st cost, e.frame.data = .bid lot st cost) ∨ (∃ lot st, e.frame.data = .award lot st) ∨
      (∃ seg, e.frame.data = .dossier seg) → sent b) ∧
    (∀ lot st cost, e.cancelMark = false → e.frame.owner = .dispatch → e.frame.data = .bid lot st cost → b.lot? lot = none →
      sent { b with bids := b.bids.map (fun x => if x.lot == lot && x.sentAt.isNone then
        { x with sentAt := some s.clock } else x) }) ∧
    (∀ lot st cost r f mine, e.cancelMark = false → e.frame.owner = .dispatch → e.frame.data = .bid lot st cost →
      b.lot? lot = some r → r.state = .offered → r.offer = some f → f.own.map (·.2) = some mine →
      let own := s.straps.toNat
      ∃ x : Blocks, sent x ∧ b.rewrote x lot { r with offer := some { f with
          own := some (.sent, mine)
          best := match f.best with
            | none => some (mine, own)
            | some y => if mine < y.1 ∨ (mine = y.1 ∧ own < y.2) then some (mine, own) else some y } } ∧
        x = { b with
          lots := x.lots
          bids := b.bids.map (fun x => if x.lot == lot && x.sentAt.isNone then { x with sentAt := some s.clock } else x) }) ∧
    (∀ lot st r, e.cancelMark = false → e.frame.owner = .dispatch → e.frame.data = .award lot st → b.lot? lot = some r →
      r.state = .awarded →
      r.awardDue = true → r.held = false →
      ∃ x : Blocks, sent x ∧ b.rewrote x lot { r with awardDue := false } ∧
        x = { b with lots := x.lots, custody := { b.custody with sendList := b.custody.sendList ++ [lot] } }) ∧
    (∀ lot st r, e.cancelMark = false → e.frame.owner = .dispatch → e.frame.data = .award lot st → b.lot? lot = some r →
      r.state = .awarded → r.awardDue = true → r.held = true →
      ∃ x : Blocks, sent x ∧ x = { b with lots := x.lots } ∧
        b.rewrote x lot { r with awardDue := false, dossierSend := some .stopped }) ∧
    (∀ lot st r, e.cancelMark = false → e.frame.owner = .dispatch → e.frame.data = .award lot st → b.lot? lot = some r →
      r.state = .queued →
      ∃ x : Blocks, sent x ∧ x = { b with lots := x.lots } ∧ b.rewrote x lot { r with awardDue := false }) ∧
    (∀ seg r, e.cancelMark = false → e.frame.owner = .custody → e.frame.data = .dossier seg → b.lot? e.frame.lot = some r →
      r.dossierSend = some (.sending seg.number) →
      ∃ x : Blocks, sent x ∧
        (if seg.number < r.summaries.length + 2 then
          b.rewrote x e.frame.lot { r with dossierSend := some (.sending (seg.number + 1)) } ∧ x = { b with lots := x.lots }
        else b.rewrote x e.frame.lot { r with dossierSend := some .done } ∧
          x = { b with lots := x.lots, custody := { b.custody with
            sendList := b.custody.sendList.filter (fun l => l != e.frame.lot) } })) ∧
    (∀ a ∈ b.custody.answers, e.frame = a.frame → a.kind ≠ .decline →
      sent { b with custody := { b.custody with answers := b.custody.answers.filter (fun x => x.frame != a.frame) } }) ∧
    (∀ a ∈ b.custody.answers, e.frame = a.frame → a.kind = .decline → (b.lot? a.lot).isSome = true →
      ∃ x : Blocks, sent x ∧ x.lot? a.lot = none ∧ (∀ y ∈ x.custody.answers, y.lot ≠ a.lot)) ∧
    (∀ family lot st, e.frame.owner = .family → e.frame.data = .hold family lot st →
      let told := b.family.entries.map (fun x =>
        if x.isLocal && x.family == family && x.lot == lot then { x with holdDue := false } else x)
      let at_ := fun (cu : Option Cursor) => sent { b with family := { b.family with entries := told, cursor := cu } }
      let first := fun (rest : List FamilyEntry) =>
        (rest.find? (fun x => x.isLocal && !x.holdDue && !b.inSlot (Frame.isHoldOf x.family x.lot))).map
          (fun x => (⟨x.family, x.lot, false, none, none⟩ : Cursor))
      (b.family.cursor = none → at_ none) ∧
      ∀ cu, b.family.cursor = some cu →
        (cu.waitsFor = some (family, lot) → at_ (some { cu with waitsFor := none })) ∧
        (cu.waitsFor ≠ some (family, lot) → cu.placed = false ∨ (cu.family, cu.lot) ≠ (family, lot) → at_ (some cu)) ∧
        (cu.waitsFor ≠ some (family, lot) → cu.placed = true → (cu.family, cu.lot) = (family, lot) →
          (∀ n, cu.gone = some n → at_ (first (told.drop n))) ∧
          (cu.gone = none → ∀ pre x post, told = pre ++ x :: post → (x.family, x.lot) = (family, lot) →
            (∀ y ∈ pre, (y.family, y.lot) ≠ (family, lot)) → at_ (first post)))) ∧
    (∀ family lot st, e.frame.owner = .family → e.frame.data = .clear family lot st →
      sent { b with family := { b.family with clearDue := b.family.clearDue.filter (fun k => k != (family, lot)) } }) ∧
    (∀ lot reason st, e.frame.owner = .release → e.frame.data = .object lot reason st →
      sent { b with release := { b.release with
        objections := b.release.objections.filter (fun o => !(o.lot == lot && o.station == st)) } }) ∧
    (e.frame.owner = .family → e.frame.data = .rollcall → b.family.rollcallDue = true →
      sent { b with family := { b.family with
        rollcallDue := false, rollcallRetry := none, refusalMark := false
        window := some (s.clock + s.image.rollcallWindow * 1000) } }) ∧
    (∀ lot family r, e.frame.owner = .release → e.frame.data = .intent lot family → b.lot? lot = some r →
      r.state = .releasing →
      ∃ x : Blocks, sent x ∧ x = { b with lots := x.lots } ∧ b.rewrote x lot { r with
        intent := some .sent, deadline := some ⟨.releaseWindow, s.clock + s.image.releaseWindow * 1000⟩ }) ∧
    (∀ lot family good, e.frame.owner = .release → e.frame.data = .shipped lot family good →
      sent { b with release := { b.release with ring := b.release.ring.map (fun x =>
        if x.placement = some e.placement then { x with due := false, retry := none, placement := none } else x) } }) ∧
    (∀ lot k d st, e.frame.owner = .evaluator → e.frame.data = .dispose lot k d st ∨ e.frame.data = .disposed lot k d st →
      sent b)

/-- Withdrawal and rejoin. A transmit error that takes tx_err to 230 or more withdraws the station (R35, R37), a missing
acknowledgement too, and is still signalled, in the way of the state it is found in (the model's reading, log 61): the slots
empty, the slot requests go, offers and awards in progress return to AWAITING, bid records and INBOUND_PENDING records are
discarded, open intent windows are abandoned and objections discarded, the roll call ends, and so does a remote disposition whose
own DISPOSE a slot held (R66, R85, R154, R169, R181; that frame is told by its placement number, log 62). The due answers, but for
those of the records discarded, the family entries, SATURATED, the refusal mark and the clear-due list stay (R85, R169). After the
rejoin interval, the idle time left and the busy time meanwhile, which is a free value of the model (R38; log 3), it rejoins with
its counters at 0, UNSETTLED set, every entry of another station UNCONFIRMED, every local HOLD due, and a roll call due, the rest
of the list and the due answers as they were (R38, R85, R169). -/
def Obligations.WithdrawalAndRejoin : Prop :=
  ∀ s : State, s.live = true → (s.blocks.lots.map (·.lot)).Nodup →
    (∀ i e m, s.blocks.link.sends i e → s.blocks.link.state ≠ .withdrawn → 224 ≤ s.blocks.link.txErr →
      (s.blocks.link.state = .quiet → m = false) →
      (∀ r ∈ s.blocks.lots, r.state = .inboundPending → s.blocks.ownsEntry r = false) →
      ∃ b : Blocks, exec (.transmitError m) s = .next (s.settled b) ∧
        b.link = { s.blocks.link with
          slots := List.replicate 6 none, requests := [], placements := 0, rejoinAcc := 0, state := .withdrawn
          txErr := min 255 (s.blocks.link.txErr + 6)
          signals := s.blocks.link.signals ++ [if s.blocks.link.state = .quiet then .errorPassive else .errorActive] } ∧
        b.bids = [] ∧ b.custody.sendList = [] ∧ b.release.objections = [] ∧
        b.release.ring = s.blocks.release.ring.map (fun y => { y with placement := none }) ∧
        b.family = { s.blocks.family with window := none, rollcallDue := false, rollcallRetry := none, cursor := none } ∧
        b.custody.answers = s.blocks.custody.answers.filter (fun a =>
          !s.blocks.lots.any (fun r => r.state == .inboundPending && r.lot == a.lot)) ∧
        b.td = s.blocks.td ∧ b.setup = s.blocks.setup ∧ b.ports = s.blocks.ports ∧
        (let lost := fun (q : RemoteDisposition) => ∃ y ∈ s.blocks.link.slots, ∃ f ∈ y, f.frame.isDispose = true ∧
           f.placement = q.placement
         (∀ q, s.blocks.remote = some q → (lost q → b.remote = none) ∧ (¬lost q → b.remote = some q)) ∧
         (s.blocks.remote = none → b.remote = none)) ∧
        ∀ r ∈ s.blocks.lots,
          match r.state with
          | .inboundPending => b.lot? r.lot = none
          | .offered => b.lot? r.lot = some { r with state := .awaiting, offer := none, peer := none, deadline := none }
          | .awarded => b.lot? r.lot = some { r with
              state := .awaiting, awardDue := false, dossierSend := none, peer := none, deadline := none }
          | .queued => b.lot? r.lot = some { r with awardDue := false }
          | .releasing => b.lot? r.lot = some { r with
              state := .finished, intent := none, deadline := none, releaseRetry := none }
          | _ => b.lot? r.lot = some r) ∧
    (s.blocks.link.state = .withdrawn → s.blocks.family.window = none → s.blocks.family.rollcallDue = false →
      let left := s.image.rejoinInterval * 1000 - s.blocks.link.rejoinAcc
      ∃ b : Blocks, exec .rejoin s = .next
          ((s.elapse (if left = 0 then 0 else left + Config.lineBusyMs s.clock left)).settled b) ∧
        b.link.txErr = 0 ∧ b.link.rxErr = 0 ∧ b.link.state = .normal ∧ b.link.joined = false ∧ b.link.rejoinAcc = 0 ∧
        b.family = { s.blocks.family with
          entries := s.blocks.family.entries.map (fun e =>
            if e.isLocal then { e with holdDue := true } else { e with state := .unconfirmed })
          unsettled := true, rollcallDue := true, rollcallRetry := b.family.rollcallRetry, cursor := b.family.cursor } ∧
        b.custody.answers = s.blocks.custody.answers ∧
        b.lots.map (·.lot) = s.blocks.lots.map (·.lot) ∧
        ∀ r ∈ b.lots, r.state.custody = true → r.ending = false → b.ownsEntry r = false → r.hasHold .family = true)

/-- A frame counts as received: it is acknowledged in NORMAL, WARNED and QUIET (R22, R36), and rx_err falls (R34), the link state
with it where the counters stand for a lower one, with its LINK_STATE notice (R35).
One whose station field is no other station's is discarded, and one that carries the station's own number sets the station clash
mark with its notice (R31, R32). A frame with a field out of its range is ignored by every block (R193). While the link is not up
no frame is taken (R19, R37). -/
def Obligations.DiscardedFramesChangeNothingElse : Prop :=
  ∀ (s : State) (src : Nat) (f : FrameData), s.live = true →
    (s.blocks.link.up = false → exec (heardCommand src f) s = .next s) ∧
    (s.blocks.link.up = false → ∀ cls kind, exec (.frameDiscarded cls kind src) s = .next s) ∧
    (s.blocks.link.up = true →
      (let st := linkStateOf s.blocks.link.txErr (s.blocks.link.rxErr - 1)
       st = s.blocks.link.state ∨ st = .normal ∨ st = .warned) →
      let b := s.blocks.counted { s.blocks.link with
        rxErr := s.blocks.link.rxErr - 1, signals := s.blocks.link.signals ++ [.acknowledge] }
      s.received = b ∧
      (src = s.straps.toNat → s.blocks.link.clash = false →
        exec (heardCommand src f) s = .next (s.settled
          (({ b with link := { b.link with clash := true } } : Blocks).note (.stationClash (frameClass f) (frameKind f)))) ∧
        ∀ cls kind, exec (.frameDiscarded cls kind src) s = .next (s.settled
          (({ b with link := { b.link with clash := true } } : Blocks).note (.stationClash cls kind)))) ∧
      ((src = s.straps.toNat → s.blocks.link.clash = true) →
        (src = 0 ∨ 62 < src ∨ src = s.straps.toNat → exec (heardCommand src f) s = .next (s.settled b)) ∧
        ∀ cls kind, exec (.frameDiscarded cls kind src) s = .next (s.settled b)) ∧
      (1 ≤ src → src ≤ 62 → src ≠ s.straps.toNat → frameOk f = false →
        exec (heardCommand src f) s = .next (s.settled b)))

/-! ## Frames heard -/

/-- HOLD, CLEAR and ROLLCALL heard (R46, R157, R158, R160 to R163, R166): a HOLD confirms the entry of its key or makes one, which
lists the family, with an ESCAPE notice for each released lot of the family, in the order of the ring (log 83) and before any
HOLD_RAISED of FAMILY (log 82); a new key with no place left sets SATURATED and the refusal mark, and as SATURATED is set every
PENDING OFFER is cancelled, its lot waiting for the re-offer interval, while a lot whose OFFER is on the wire stays OFFERED (log
25), and every bid record is dropped (R46); a CLEAR removes an entry of another station and no other entry, its place going where
R167 says (a lot that is ending takes none, log 24), and starts a roll call when SATURATED is set and none is due or running
(R167); neither touches a local entry; a ROLLCALL starts the answer cursor, or starts it again, at the first local entry that is
neither due nor in a slot: an answer of the walk that is PENDING is cancelled, one on the line finishes its attempt, and the
cursor waits for its outcome; the answer of an earlier walk, for whose outcome the cursor waits, passes no entry over (log 35).
The frame counts in rx_err and the link state before it is judged (the model's choice, log 74). -/
def Obligations.FamilyFramesHeard : Prop :=
  ∀ (s : State) (src family lot raiser : Nat), s.hears src = true → 1 ≤ family → family ≤ 16777215 → 1 ≤ lot →
    lot ≤ 4294967295 → 1 ≤ raiser → raiser ≤ 62 → (s.blocks.lots.map (·.lot)).Nodup →
    let b := s.received
    let hold := fun (x : Blocks) => exec (.holdHeard src family lot raiser) s = .next (s.settled x)
    let clear := fun (x : Blocks) => exec (.clearHeard src family lot raiser) s = .next (s.settled x)
    let applied := fun (x : Blocks) => ∀ r ∈ x.lots, r.state.custody = true → r.ending = false → r.family = family →
      x.ownsEntry r = false → r.hasHold .family = true
    let entered := { b.family with
      entries := b.family.entries ++ [⟨family, lot, raiser, false, .confirmed, s.clock, false⟩] }
    let escapes := (b.release.ring.filter (fun e => e.family == family)).map
      (fun e => Notice.escape e.lot e.family e.good e.time lot raiser)
    (∀ e, b.family.entry? family lot = some e → e.isLocal = true → hold b ∧ clear b) ∧
    (b.family.entry? family lot = none → clear b) ∧
    (∀ e, b.family.entry? family lot = some e → e.isLocal = false →
      hold { b with family := { b.family with entries := b.family.entries.map (fun x =>
        if x.family == family && x.lot == lot then { x with state := .confirmed, raiser := raiser, time := s.clock } else x) } }) ∧
    (b.family.entry? family lot = none → b.family.entries.length < 16 → b.family.listed family = true →
      hold (escapes.foldl Blocks.note { b with family := entered })) ∧
    (b.family.entry? family lot = none → b.family.entries.length < 16 → b.family.listed family = false →
      ∃ x : Blocks, hold x ∧ applied x ∧ (∀ q ∈ x.bids, q.family ≠ family) ∧
        x.family = entered ∧ (escapes.foldl Blocks.note b).op.notices <+: x.op.notices ∧
        x.lots.map (·.lot) = b.lots.map (·.lot)) ∧
    (b.family.entry? family lot = none → 16 ≤ b.family.entries.length → b.family.saturated = true →
      hold { b with family := { b.family with refusalMark := true } }) ∧
    (b.family.entry? family lot = none → 16 ≤ b.family.entries.length → b.family.saturated = false →
      let offering := fun (r : LotRecord) => ∃ y ∈ b.link.slots, ∃ f ∈ y, f.onWire = false ∧ f.frame.isOffer r.lot = true
      ∃ x : Blocks, hold x ∧ x.bids = [] ∧ x.family = { b.family with saturated := true, refusalMark := true } ∧
        (∀ y ∈ x.link.slots, ∀ f ∈ y, f.onWire = false → ∀ l, f.frame.isOffer l = false) ∧
        (∀ q ∈ b.bids, x.link.cancelled (Frame.isBid q.lot)) ∧
        (∀ r ∈ b.lots, offering r → r.state = .offered ∨ r.state = .awaiting → ∃ r', x.lot? r.lot = some r' ∧ r' = { r with
          state := .awaiting, offer := none, holds := r'.holds
          deadline := some ⟨.reoffer, s.clock + s.image.reofferInterval * 1000⟩ }) ∧
        (∀ r ∈ b.lots, ¬offering r → r.state = .offered → ∃ r', x.lot? r.lot = some r' ∧ r' = { r with
          holds := r'.holds, offer := r'.offer }) ∧
        (∀ r ∈ x.lots, r.state.custody = true → r.ending = false → x.ownsEntry r = false → r.hasHold .family = true) ∧
        x.lots.map (·.lot) = b.lots.map (·.lot)) ∧
    (∀ e, b.family.entry? family lot = some e → e.isLocal = false →
      ∃ x : Blocks, clear x ∧ b.entryRemoved x family lot ∧ b.rollcallAfterRemoval x s.clock ∧
        (∀ r ∈ x.lots, r.ending = false → r.hasHold .family = true → x.family.holdsFamily r.family = true) ∧
        x.lots.map (·.lot) = b.lots.map (·.lot)) ∧
    (b.family.cursor = none → exec (.rollcallHeard src) s = .next (s.settled { b with family := { b.family with
      cursor := (b.family.entries.find? (fun e => e.isLocal && !e.holdDue && !b.inSlot (Frame.isHoldOf e.family e.lot))).map
        (fun e => ⟨e.family, e.lot, false, none, none⟩) } })) ∧
    (∀ cu, b.family.cursor = some cu → cu.placed = false → exec (.rollcallHeard src) s = .next (s.settled { b with family := { b.family with
      cursor := (b.family.entries.find? (fun e => e.isLocal && !e.holdDue &&
        (cu.waitsFor == some (e.family, e.lot) || !b.inSlot (Frame.isHoldOf e.family e.lot)))).map
          (fun e => ⟨e.family, e.lot, false, cu.waitsFor, none⟩) } })) ∧
    (∀ (cu : Cursor) (waits : Option (Nat × Nat)), b.family.cursor = some cu → cu.placed = true →
      let onLine := ∃ y ∈ b.link.slots, ∃ f ∈ y, f.onWire = true ∧ f.frame.isOfKey cu.family cu.lot = true
      (onLine → waits = some (cu.family, cu.lot)) → (¬onLine → waits = cu.waitsFor) →
      let y : Blocks := { b with link := { b.link with slots := b.link.slots.map (fun y => y.bind (fun f =>
        if f.frame.isHoldOf cu.family cu.lot then (if f.onWire then some { f with cancelMark := true } else none) else some f)) } }
      exec (.rollcallHeard src) s = .next (s.settled { y with family := { b.family with
        cursor := (b.family.entries.find? (fun e => e.isLocal && !e.holdDue &&
          (waits == some (e.family, e.lot) || !y.inSlot (Frame.isHoldOf e.family e.lot)))).map
            (fun e => ⟨e.family, e.lot, false, waits, none⟩) } }))

/-- INTENT and OBJECT heard (R83, R142, R175, R176): an INTENT for a lot in custody here is objected to as DUPLICATE, one of a held
family as FAMILY, once for a lot and station, and with OBJECTION_LOST when 16 objections are due. An OBJECT that names this station
abandons the lot's open release window, to be tried again one release window later, or is late when the lot has shipped; the
release unit takes it first (log 54). At an INTENT, and at an OBJECT of reason DUPLICATE whatever station it names (log 31), a lot
in custody taken from the sender has its TAKE due again and no hold; any other takes an IDENT hold, unless one is open or the lot
is ending (log 24): in test it sets the latch, AWARDED its dossier stops, RELEASING its window is abandoned. The notices of one event
stand in the order of the text of its rules (log 82).
The frame counts in rx_err and the link state before it is judged (the model's choice, log 74). -/
def Obligations.IntentAndObjectHeard : Prop :=
  ∀ (s : State) (src lot family objected : Nat), s.hears src = true → 1 ≤ family → family ≤ 16777215 → 1 ≤ lot →
    lot ≤ 4294967295 → 1 ≤ objected → objected ≤ 62 →
    let b := s.received
    let own := s.straps.toNat
    let intent := fun (x : Blocks) => exec (.intentHeard src lot family) s = .next (s.settled x)
    let object := fun (reason : Nat) (x : Blocks) => exec (.objectHeard src lot reason objected) s = .next (s.settled x)
    let objecting := fun (reason : ObjectReason) =>
      if ∃ o ∈ b.release.objections, o.lot = lot ∧ o.station = src then b
      else if b.release.objections.length < 16 then
        { b with release := { b.release with objections := b.release.objections ++ [⟨lot, reason, src⟩] } }
      else b.note (.objectionLost lot reason src)
    let late := fun (reason : ObjectReason) =>
      if objected = own ∧ ∃ e ∈ b.release.ring, e.lot = lot then b.note (.lateObjection lot src reason) else b
    let hold := fun (r : LotRecord) => (⟨.ident, r.insertionNo, s.clock, .lot, none, []⟩ : Hold)
    let raised := fun (y : Blocks) (r : LotRecord) => y.note (.holdRaised lot .ident .lot r.insertionNo none)
    let taking := fun (y : Blocks) =>
      if ∃ a ∈ y.custody.answers, a.lot = lot ∧ a.kind = .take then y
      else { y with custody := { y.custody with answers := y.custody.answers ++ [⟨lot, .take, src⟩] } }
    let elsewhere := ∀ r, b.lot? lot = some r → r.state.custody = false
    let noWindow := objected ≠ own ∨ ∀ r, b.lot? lot = some r → r.state ≠ .releasing
    -- what the custody unit does with the claim of another station, `y` standing before it
    let contested := fun (y : Blocks) (took : Blocks → Prop) => ∀ r, b.lot? lot = some r → r.state.custody = true →
      (r.takenFrom = some src → took (taking y)) ∧
      (r.takenFrom ≠ some src → r.ending = true ∨ r.hasHold .ident = true → took y) ∧
      (r.takenFrom ≠ some src → r.ending = false → r.hasHold .ident = false →
        (r.state ≠ .awarded → r.state ≠ .releasing → took { raised y r with
          lots := y.lots.map (fun z => if z.lot == lot then { z with holds := z.holds ++ [hold z] } else z)
          td := if r.state = .inTest ∨ r.state = .closing then { y.td with latch := true } else y.td }) ∧
        (r.state = .awarded → ∃ x : Blocks, took x ∧ y.rewrote x lot { r with
            holds := r.holds ++ [hold r]
            dossierSend := if lot ∈ b.custody.sendList then some .stopped else r.dossierSend } ∧
          (lot ∈ b.custody.sendList → x.link.cancelled (Frame.isDossier lot)) ∧
          x = { raised y r with
            lots := x.lots, link := { y.link with slots := x.link.slots }
            custody := { y.custody with sendList := y.custody.sendList.filter (fun l => l != lot) } }) ∧
        (r.state = .releasing → ∃ x : Blocks, took x ∧ y.rewrote x lot { r with
            holds := r.holds ++ [hold r], state := .finished, intent := none, deadline := none, releaseRetry := none } ∧
          x.link.cancelled (Frame.isIntent lot) ∧
          x = { (raised y r).note (.releaseAbandoned lot (.hold .ident)) with
            lots := x.lots, link := { y.link with slots := x.link.slots } }))
    contested (objecting .duplicate) intent ∧
    (elsewhere → intent (if b.family.holdsFamily family then objecting .family else b)) ∧
    (noWindow → contested (late .duplicate) (object 1)) ∧
    (elsewhere → object 1 (late .duplicate)) ∧
    (noWindow → object 2 (late .family)) ∧
    (∀ r reason, objected = own → b.lot? lot = some r → r.state = .releasing → reason = 1 ∨ reason = 2 →
      let identifies := reason = 1 ∧ r.takenFrom ≠ some src ∧ r.ending = false ∧ r.hasHold .ident = false
      ∃ x : Blocks, object reason x ∧
        b.rewrote x lot { r with
          state := .finished, intent := none, deadline := none
          releaseRetry := some (s.clock + s.image.releaseWindow * 1000)
          holds := if identifies then r.holds ++ [hold r] else r.holds } ∧
        x.link.cancelled (Frame.isIntent lot) ∧
        (b.op.notices.length < 16 →
          Notice.releaseAbandoned lot (.objection src (if reason = 1 then .duplicate else .family)) ∈ x.op.notices) ∧
        x = { b with
          lots := x.lots, op := x.op, link := { b.link with slots := x.link.slots }
          custody := if reason = 1 ∧ r.takenFrom = some src then (taking b).custody else b.custody })

/-- An OFFER heard (R47, R53, R55 to R57): the station bids when every condition of R47 holds, at the cost of its backlog plus the
changeover, and does not when one of them fails; a BID it had standing for the lot is withdrawn first. The BID's placement number
is one above the count (the model's choice, log 27). A lot in custody here is objected to and takes an IDENT hold, an inbound lot
of the offerer is cancelled (R82). The frame counts in rx_err and the link state before it is judged (the model's choice, log 74).
The units of an OFFER may be any number of two bytes (the model's choice, log 97). -/
def Obligations.OfferHeardIsJudged : Prop :=
  ∀ (s : State) (src : Nat) (o : OfferFields), s.hears src = true → offerOk o = true →
    let b := s.received
    let heard := fun (x : Blocks) => exec (.offerHeard src o) s = .next (s.settled x)
    let c := s.ctx
    let mine := fun (rec_ : Recipe) (ins : RecipeInsertion) =>
      s.image.recipes.find? (fun r => r.product == o.product) = some rec_ ∧ rec_.packageClass = o.packageClass ∧
      rec_.route[o.insertion - 1]? = some ins ∧ bandCode ins.band = o.band ∧ ins.program = o.program ∧
      ins.band ∈ s.image.bands
    let open_ := c.passesFilter o = true ∧ 1 ≤ o.units ∧ 1 ≤ b.td.enabledCount ∧ b.commitments < 8 ∧
      b.lots.length + b.bids.length < 16 ∧ b.bids.length < 4 ∧ b.family.holdsFamily o.family = false ∧
      (b.link.state = .normal ∨ b.link.state = .warned)
    let fresh := b.lot? o.lot = none ∧ ∀ q ∈ b.bids, q.lot ≠ o.lot
    (∀ rec_ ins i x, mine rec_ ins → open_ → fresh → b.link.freeAt i →
      changeover c b.setup (b.projected c) ins o.packageClass 16 ins.chainHead 0 = some x →
      let cost := min 65535 (b.backlog c + x)
      heard { b.placed s.straps.toNat i ⟨.dispatch, o.lot, .bid o.lot src cost⟩ with
        bids := b.bids ++ [⟨o.lot, src, o.family, cost, s.clock, none⟩] }) ∧
    (¬open_ ∨ (∀ rec_ ins, ¬mine rec_ ins) → fresh → heard b) ∧
    (∀ rec_ ins, mine rec_ ins → fresh →
      changeover c b.setup (b.projected c) ins o.packageClass 16 ins.chainHead 0 = none → heard b) ∧
    (∀ q ∈ b.bids, q.lot = o.lot → b.lot? o.lot = none → (∀ rec_ ins, ¬mine rec_ ins) →
      ∃ x : Blocks, heard x ∧ x.bids = b.bids.filter (fun r => r.lot != o.lot) ∧ x.lots = b.lots ∧
        x.link.cancelled (Frame.isBid o.lot)) ∧
    (∀ r, b.lot? o.lot = some r → r.takenFrom ≠ some src → (∀ q ∈ b.bids, q.lot ≠ o.lot) → r.ending = false →
      r.hasHold .ident = false → (∀ a ∈ b.custody.answers, a.lot ≠ o.lot) →
      r.state = .awaiting ∨ r.state = .offered ∨ r.state = .queued ∨ r.state = .setup ∨ r.state = .finished →
      heard { b.note (.holdRaised o.lot .ident .lot r.insertionNo none) with
        lots := b.lots.map (fun y => if y.lot == o.lot then
          { y with holds := y.holds ++ [⟨.ident, y.insertionNo, s.clock, .lot, none, []⟩] } else y)
        custody := { b.custody with answers := b.custody.answers ++ [⟨o.lot, .object, src⟩] } }) ∧
    (∀ r, b.lot? o.lot = some r → r.state.custody = true → r.takenFrom = some src → (∀ q ∈ b.bids, q.lot ≠ o.lot) →
      (∀ a ∈ b.custody.answers, a.lot ≠ o.lot) →
      heard { b with custody := { b.custody with answers := b.custody.answers ++ [⟨o.lot, .take, src⟩] } }) ∧
    (∀ r, b.lot? o.lot = some r → r.state = .inbound ∨ r.state = .inboundPending → r.peer = some src →
      (∀ q ∈ b.bids, q.lot ≠ o.lot) →
      ∃ x : Blocks, heard (x.note (.arrivalCancelled o.lot .reoffered)) ∧ x.lot? o.lot = none ∧
        ∀ a ∈ x.custody.answers, a.lot ≠ o.lot)

/-- The cost a bidder forms (R49 to R54): the backlog is the sum, over the contributing lots, of ceil(ceil(U / N) * T / 1000),
saturating at 65,535; U is what an account still expects or the in qty of the next insertion, T the mean of the timer ring or
the nominal touchdown time. With no contributing lot the projected setup is the cell's present one; else the last lot in the
order of R51 gives band and kit, and every contributing lot adds its program. The changeover is the saturating sum of the steps'
amounts along the chain, and none past 16 records. (With a DECLINE due the order is log 52's choice and is not stated here.) -/
def Obligations.BacklogAndProjectedSetup : Prop :=
  ∀ (c : Ctx) (b : Blocks),
    let lots := b.lots.filter b.contributes
    let n := b.td.enabledCount
    let th := b.setup.thermal
    b.backlog c = min 65535 (lots.map (fun r => (((r.remaining + n - 1) / n) * b.touchdownMs c r + 999) / 1000)).sum ∧
    (lots = [] → b.backlog c = 0 ∧ (b.projected c).band = (if th.phase = .ready then th.band else none) ∧
      (b.projected c).kit = b.setup.kitTaken ∧
      ∀ p, p ∈ (b.projected c).programs ↔ ∃ x ∈ b.setup.slots, x.state = .resident ∧ x.program = some p) ∧
    (∀ p, p ∈ (b.projected c).programs ↔
      (∃ x ∈ b.setup.slots, x.state = .resident ∧ x.program = some p) ∨ ∃ r ∈ lots, r.program = p) ∧
    (let inCell := fun (r : LotRecord) => r.state = .setup ∨ r.state = .inTest ∨ r.state = .closing
     let sooner := fun (x y : LotRecord) => x.priority < y.priority ∨ (x.priority = y.priority ∧
       ((x.state = .queued ∧ y.state ≠ .queued) ∨
        (x.state = .queued ∧ y.state = .queued ∧ (x.arrival.getD 0 < y.arrival.getD 0 ∨
          (x.arrival.getD 0 = y.arrival.getD 0 ∧ x.lot < y.lot))) ∨
        (x.state ≠ .queued ∧ y.state ≠ .queued ∧ x.lot < y.lot)))
     ∀ r ∈ lots, (∀ a ∈ b.custody.answers, a.kind ≠ .decline) →
       (∀ x ∈ lots, x ≠ r → ¬inCell r ∧ (inCell x ∨ sooner x r)) →
       (b.projected c).band = r.nextStep?.map (·.band) ∧ (b.projected c).kit = (c.recipe r.product).packageClass) ∧
    (∀ (u : SetupUnit) (p : Projected) (ins : RecipeInsertion) (kit : Nat) (chain : List Nat),
      (∀ i n, i < 16 → chain[i]? = some n → (c.stepRecord n).next = chain[i + 1]?) →
      changeover c u p ins kit 16 chain.head? 0 = if chain.length ≤ 16 then
        some (min 65535 (chain.map (fun n => stepAmount c u p ins kit (c.stepRecord n))).sum) else none) ∧
    (∀ (u : SetupUnit) (p : Projected) (ins : RecipeInsertion) (kit : Nat) (st : StepRecord),
      let amount := stepAmount c u p ins kit st
      (st.estimate = 0 → amount = 0) ∧ (st.estimate ≠ 0 →
        (st.kind = some .loadProgram →
          amount = if (if st.param = 0 then ins.program else st.param) ∈ p.programs then 0 else st.estimate) ∧
        (st.kind = some .setBand →
          let target := (bandOfCode st.param).getD ins.band
          let from_ := fun (a : Band) => c.cfg.transition.getD ((bandCode a - 1) * 3 + (bandCode target - 1)) 0
          (p.band = some target → amount = 0) ∧
          (∀ a, p.band = some a → a ≠ target → amount = min 65535 (from_ a + ins.soakMinutes * 60)) ∧
          (p.band = none →
            amount = min 65535 (max (from_ .cold) (max (from_ .room) (from_ .hot)) + ins.soakMinutes * 60))) ∧
        (st.kind = some .confirmKit →
          amount = if p.kit = (if st.param = 0 then kit else st.param) then 0 else st.estimate) ∧
        (st.kind = some .correlate →
          let fresh := st.param ≠ 0 ∧ ∃ (n : Nat) (q : ProgSlot) (t : Nat), 1 ≤ n ∧ u.active = some n ∧
            u.slots[n - 1]? = some q ∧ q.state = .resident ∧ q.program = some ins.program ∧ q.correlated = some t ∧
            c.now ≤ t + st.param * 3600000
          (fresh → amount = 0) ∧ (¬fresh → amount = st.estimate)) ∧
        (st.kind = some .waitOperator → amount = st.estimate))) ∧
    (∀ r : LotRecord, b.contributes r = true ↔
      (r.state = .inbound ∨ r.state = .queued ∨ r.state = .setup ∨ r.state = .inTest ∨ r.state = .closing ∨
        (r.state = .inboundPending ∧ 2 ≤ r.collected)) ∧ ∀ a ∈ b.custody.answers, a.lot = r.lot → a.kind ≠ .decline) ∧
    (∀ (r : LotRecord) (a : Account), r.account = some a →
      (r.remaining : Int) = max 0 ((a.declared : Int) + a.adj - (a.placedMain : Int) + (a.voidOpen : Int))) ∧
    (∀ r : LotRecord, r.account = none → r.state = .queued ∨ r.state = .inbound →
      r.remaining = if r.nextInsertion = some 1 then r.entryQty else (r.summaries.getLast?.map (·.good)).getD 0) ∧
    (∀ (r : LotRecord) (n : Nat), r.account = none → r.state = .inboundPending → r.nextInsertion = some n →
      r.summaries.length < n - 1 → r.remaining = r.entryQty) ∧
    (∀ r : LotRecord, r.state = .inTest → 4 ≤ b.td.timerRing.length →
      b.touchdownMs c r = b.td.timerRing.sum / b.td.timerRing.length) ∧
    (∀ r : LotRecord, r.state ≠ .inTest ∨ b.td.timerRing.length < 4 → b.touchdownMs c r = (c.lotInsertion r).nominalMs)

/-- BID and AWARD heard (R58 to R60, R15): a bidder whose bid is beaten drops it, the offerer its own with the own bid field; the
offerer keeps the lowest bid, at equal cost the one of the lower station; the AWARD to this station makes an INBOUND_PENDING
record, an AWARD to another drops the bid record, and one from a station that did not offer the lot is passed over; a BID still
PENDING is cancelled with the record, at the own AWARD by log 53. The frame counts in rx_err and the link state before it is
judged (the model's choice, log 74). -/
def Obligations.BidsAndAwardsHeard : Prop :=
  ∀ (s : State) (src lot st cost : Nat), s.hears src = true → 1 ≤ lot → lot ≤ 4294967295 → 1 ≤ st → st ≤ 62 → cost ≤ 65535 →
    let b := s.received
    let own := s.straps.toNat
    let bid := fun (x : Blocks) => exec (.bidHeard src lot st cost) s = .next (s.settled x)
    let award := fun (x : Blocks) => exec (.awardHeard src lot st) s = .next (s.settled x)
    let beats := fun (q : BidRecord) => cost < q.cost ∨ (cost = q.cost ∧ src < own)
    let dropped := fun (x : Blocks) => x.bids = b.bids.filter (fun q => q.lot != lot) ∧
      x.link.cancelled (Frame.isBid lot)
    (∀ q ∈ b.bids, q.lot = lot → q.offerer = st → beats q → st ≠ own → ∃ x : Blocks, bid x ∧ dropped x) ∧
    ((∀ q ∈ b.bids, q.lot = lot → q.offerer = st → ¬beats q) → st ≠ own → bid b) ∧
    (∀ r f, st = own → b.lot? lot = some r → r.state = .offered → r.offer = some f →
      let best := match f.best with
        | none => (cost, src)
        | some y => if cost < y.1 ∨ (cost = y.1 ∧ src < y.2) then (cost, src) else y
      ((∀ q ∈ b.bids, q.lot = lot → q.offerer = own → ¬beats q) →
        ∃ x : Blocks, bid x ∧ x = { b with lots := x.lots } ∧
          b.rewrote x lot { r with offer := some { f with best := some best } }) ∧
      (∀ q ∈ b.bids, q.lot = lot → q.offerer = own → beats q →
        ∃ x : Blocks, bid x ∧ dropped x ∧ b.rewrote x lot { r with offer := some { f with own := none, best := some best } } ∧
          x = { b with lots := x.lots, bids := x.bids, link := { b.link with slots := x.link.slots } })) ∧
    ((∀ q ∈ b.bids, q.lot ≠ lot) → award b) ∧
    (∀ q, b.bids.find? (fun q => q.lot == lot) = some q →
      (q.offerer ≠ src → award b) ∧
      (q.offerer = src → st ≠ own → ∃ x : Blocks, award x ∧ dropped x ∧ x.lots.map (·.lot) = b.lots.map (·.lot)) ∧
      (q.offerer = src → st = own → b.lot? lot = none → ∃ (x : Blocks) (r : LotRecord), award x ∧ dropped x ∧ b.rewrote x lot r ∧
        r.lot = lot ∧ r.state = .inboundPending ∧ r.peer = some src ∧ r.collected = 0 ∧ r.holds = [] ∧ r.account = none ∧
        r.deadline = none ∧ r.attempts = 0 ∧ r.disposedHolds = 0 ∧ r.summaries = [] ∧ r.arrival = none ∧ r.takenFrom = none))

/-- The segments of a DOSSIER (R71 to R73): the identity, the route and the summaries are written in turn; with the last the
record is INBOUND, its arrival timeout runs, its ACCEPT is due and ARRIVAL_EXPECTED is queued; a segment that fails its checks
or comes out of turn removes the record, and so do a segment 1 that names its lot from another station, and, while the collection
is open, one from its peer that names another lot, which is then taken for that lot's record. Between segments 1 and 2 the route's insertions are placeholders, COLD with program 0
(log 37).
The frame counts in rx_err and the link state before it is judged (the model's choice, log 74). -/
def Obligations.DossierIsCollected : Prop :=
  ∀ (s : State) (src : Nat) (r : LotRecord), s.hears src = true →
    let b := s.received
    let heard := fun (g : DossierSegment) (x : Blocks) => exec (.dossierHeard src g) s = .next (s.settled x)
    b.lot? r.lot = some r → r.state = .inboundPending → r.peer = some src → (∀ a ∈ b.custody.answers, a.lot ≠ r.lot) →
    let complete := fun (g : DossierSegment) (r' : LotRecord) => ∃ x : Blocks,
      heard g (x.note (.arrivalExpected r.lot src r'.product (r'.nextInsertion.getD 0) r'.inQty)) ∧
        b.rewrote x r.lot { r' with
          state := .inbound, collected := 0, segmentCount := none
          deadline := some ⟨.arrivalTimeout, s.clock + s.image.arrivalTimeout * 60000⟩ } ∧
        x = { b with lots := x.lots, custody := { b.custody with
          answers := b.custody.answers ++ [⟨r.lot, .accept, src⟩] } }
    (∀ product family priority qty len next disposed count, r.collected = 0 → b.openCollection? src = none →
      let g := DossierSegment.identity r.lot product family priority qty len next disposed count
      let good := 1 ≤ product ∧ 1 ≤ family ∧ priority ≤ 3 ∧ 1 ≤ qty ∧ qty ≤ 60000 ∧ 1 ≤ len ∧ len ≤ 4 ∧ 1 ≤ next ∧
        next ≤ len ∧ count = next + 1
      (good → ∃ x : Blocks, heard g x ∧ x = { b with lots := x.lots } ∧ b.rewrote x r.lot { r with
        product := product, family := family, priority := priority, entryQty := qty
        route := List.replicate len ⟨.cold, 0⟩, nextInsertion := some next, disposedHolds := disposed
        collected := 1, segmentCount := some count }) ∧
      (¬good → ∃ x : Blocks, heard g x ∧ x.lot? r.lot = none)) ∧
    (∀ (route : List RouteStep) (rest : List (Nat × Nat)), r.collected = 1 → route.length = r.route.length →
      (∀ st ∈ route, 1 ≤ st.program ∧ st.program ≤ 4095) →
      let g := DossierSegment.route r.lot (route.map (fun st => (bandCode st.band, st.program)) ++ rest)
      (r.segmentCount ≠ some 2 → ∃ x : Blocks, heard g x ∧ x = { b with lots := x.lots } ∧
        b.rewrote x r.lot { r with route := route, collected := 2 }) ∧
      (r.segmentCount = some 2 → complete g { r with route := route })) ∧
    (∀ ins, r.collected ≠ 1 → ∃ x : Blocks, heard (.route r.lot ins) x ∧ x.lot? r.lot = none) ∧
    (∀ ins : List (Nat × Nat), r.collected = 1 →
      (∃ p ∈ ins.take r.route.length, p.1 = 0 ∨ 3 < p.1 ∨ p.2 = 0 ∨ 4095 < p.2) →
      ∃ x : Blocks, heard (.route r.lot ins) x ∧ x.lot? r.lot = none) ∧
    -- a segment 1 from another station, and one of another lot from this one
    (∀ d product family priority qty len next disposed count, s.hears d = true → d ≠ src → b.openCollection? d = none →
      ∃ x : Blocks, exec (.dossierHeard d (.identity r.lot product family priority qty len next disposed count)) s =
        .next (s.settled x) ∧ x.lot? r.lot = none) ∧
    (∀ lot product family priority qty len next disposed count, b.openCollection? src = some r → lot ≠ r.lot →
      b.ownsEntry r = false → ∃ x : Blocks,
        heard (.identity lot product family priority qty len next disposed count) x ∧ x.lot? r.lot = none ∧
        ((∀ q, b.lot? lot = some q → q.state = .inboundPending → b.ownsEntry q = false) →
          ∀ l, l ≠ r.lot → l ≠ lot → x.lot? l = b.lot? l) ∧
        (b.lot? lot = none → x.lot? lot = none) ∧
        (∀ q, b.lot? lot = some q → q.state ≠ .inboundPending → x.lot? lot = some q) ∧
        ∀ q, b.lot? lot = some q → q.state = .inboundPending → q.peer = some src → q.collected = 0 → 1 ≤ product →
          1 ≤ family → priority ≤ 3 → 1 ≤ qty → qty ≤ 60000 → 1 ≤ len → len ≤ 4 → 1 ≤ next → next ≤ len → count = next + 1 →
          x.lot? lot = some { q with
            product := product, family := family, priority := priority, entryQty := qty
            route := List.replicate len ⟨.cold, 0⟩, nextInsertion := some next, disposedHolds := disposed
            collected := 1, segmentCount := some count }) ∧
    (∀ seg no st declared adj good rejects voidFinal scrapped, b.openCollection? src = some r →
      let g := DossierSegment.summary seg no st declared adj good rejects voidFinal scrapped
      let sound := seg = r.collected + 1 ∧ no + 2 = seg ∧ 1 ≤ st ∧ st ≤ 62 ∧ -65535 ≤ adj ∧ adj ≤ 65535
      let r' := { r with summaries := r.summaries ++ [⟨no, st, declared, adj, good, rejects, voidFinal, scrapped⟩] }
      (sound → r.segmentCount ≠ some seg → ∃ x : Blocks, heard g x ∧ x = { b with lots := x.lots } ∧
        b.rewrote x r.lot { r' with collected := seg }) ∧
      (sound → r.segmentCount = some seg → complete g r') ∧
      (¬sound → ∃ x : Blocks, heard g x ∧ x.lot? r.lot = none))

/-- ACCEPT, TAKE, DECLINE, RECALL and SHIPPED heard (R74, R77, R79, R81, R179): acceptance sends the lot out, and is ignored for a
held lot, from a station that is not its peer, and for a lot in any state but AWARDED; TAKE, and a SHIPPED of the station it went
to, end its custody, also once it has been recalled and waits or is offered anew, its offer then ending; DECLINE returns it as an
unsuccessful offer, which strands it at the limit (R62); RECALL cancels the arrival, or a TAKE is due again; any other SHIPPED of
a lot in custody raises IDENT. A frame that names another station is passed over. The frame counts in rx_err and the link state
before it is judged (the model's choice, log 74). The notices of one event stand in the order of the text of its rules (log 82).
-/
def Obligations.TransferFramesHeard : Prop :=
  ∀ (s : State) (src lot st family good : Nat), s.hears src = true → 1 ≤ lot → lot ≤ 4294967295 → 1 ≤ st → st ≤ 62 →
    1 ≤ family → family ≤ 16777215 → 1 ≤ good → good ≤ 65535 →
    let b := s.received
    let own := s.straps.toNat
    let heard := fun (c : Instr) (x : Blocks) => exec c s = .next (s.settled x)
    (st ≠ own → heard (.acceptHeard src lot st) b ∧ heard (.takeHeard src lot st) b ∧ heard (.declineHeard src lot st) b ∧
      heard (.recallHeard src lot st) b) ∧
    (b.lot? lot = none → heard (.acceptHeard src lot st) b ∧ heard (.takeHeard src lot st) b ∧
      heard (.declineHeard src lot st) b ∧ heard (.recallHeard src lot st) b ∧ heard (.shippedHeard src lot family good) b) ∧
    ∀ r, b.lot? lot = some r → st = own →
      (r.state ≠ .awarded ∨ r.peer ≠ some src ∨ r.held = true → heard (.acceptHeard src lot st) b) ∧
      (r.state = .awarded → r.peer = some src → r.held = false →
        ∃ x : Blocks, heard (.acceptHeard src lot st) (x.note (.lotOut lot src)) ∧
          b.rewrote x lot { r with state := .outbound, deadline := none, awardDue := false, dossierSend := none } ∧
          x = { b with
            lots := x.lots, link := { b.link with slots := x.link.slots }
            custody := { b.custody with sendList := b.custody.sendList.filter (fun l => l != lot) } }) ∧
      (r.state = .outbound → r.peer = some src →
        (∃ x : Blocks, heard (.takeHeard src lot st) x ∧ x.lot? lot = none ∧ (∀ a ∈ x.custody.answers, a.lot ≠ lot) ∧
          (b.op.notices.length < 16 → Notice.lotTaken lot src ∈ x.op.notices)) ∧
        (∃ x : Blocks, heard (.shippedHeard src lot family good) x ∧ x.lot? lot = none) ∧
        ∃ x : Blocks, heard (.declineHeard src lot st) (x.note (.lotDeclined lot src)) ∧
          let n := min 15 (r.attempts + 1)
          b.rewrote x lot { r with
            state := .awaiting, peer := none, attempts := n, offer := none, awardDue := false, dossierSend := none
            recallMark := none, stranded := r.stranded || decide (s.image.attemptLimit ≤ n)
            deadline := if s.image.attemptLimit ≤ n then none
              else some ⟨.reoffer, s.clock + s.image.reofferInterval * 1000⟩ } ∧
          (s.image.attemptLimit ≤ n → b.op.notices.length < 16 → Notice.stranded lot n ∈ x.op.notices)) ∧
      (r.state = .awaiting ∨ r.state = .offered → r.recallMark = some src → ∀ c : Instr,
        c = .takeHeard src lot st ∨ c = .shippedHeard src lot family good →
        ∃ x : Blocks, heard c x ∧ x.lot? lot = none ∧ (∀ a ∈ x.custody.answers, a.lot ≠ lot) ∧ (∀ q ∈ x.bids, q.lot ≠ lot) ∧
          (b.op.notices.length < 16 → Notice.lotTaken lot src ∈ x.op.notices)) ∧
      (r.state = .inbound ∨ r.state = .inboundPending → r.peer = some src →
        ∃ x : Blocks, heard (.recallHeard src lot st) (x.note (.arrivalCancelled lot .recalled)) ∧ x.lot? lot = none ∧
          ∀ a ∈ x.custody.answers, a.lot ≠ lot) ∧
      (r.state.custody = true → r.takenFrom = some src → (∀ a ∈ b.custody.answers, a.lot ≠ lot) →
        heard (.recallHeard src lot st) { b with custody := { b.custody with
          answers := b.custody.answers ++ [⟨lot, .take, src⟩] } }) ∧
      (r.state = .awaiting ∨ r.state = .queued ∨ r.state = .setup ∨ r.state = .finished → r.recallMark ≠ some src →
        r.ending = false → r.hasHold .ident = false →
        heard (.shippedHeard src lot family good) (({ b.note (.holdRaised lot .ident .lot r.insertionNo none) with
          lots := b.lots.map (fun y => if y.lot == lot then
            { y with holds := y.holds ++ [⟨.ident, y.insertionNo, s.clock, .lot, none, []⟩] } else y) } : Blocks).note
              (.shippedElsewhere lot src)))

/-- DISPOSE and DISPOSED heard (R153, R154): a disposition of a lot in custody here is judged as R145 judges one of the terminal
and answered with its result, the DISPOSED's placement number one above the count (the model's choice, log 27); of any other lot
it is passed over. A RESUME of the last hold of family scope ends the lot's local entry before the DISPOSED is placed (R158, R167;
a lot that is ending takes no freed place, log 24). The answer to the pending request ends it; one that names another lot, kind or
requester does not. The frame counts in rx_err and the link state before it is judged (the model's choice, log 74). -/
def Obligations.RemoteDispositionsHeard : Prop :=
  ∀ (s : State) (src lot : Nat) (k : HoldKind) (d : Disposition), s.hears src = true → 1 ≤ lot → lot ≤ 4294967295 →
    let b := s.received
    let own := s.straps.toNat
    let dispose := fun (x : Blocks) => exec (.disposeHeard src lot (holdKindCode k) (dispositionCode d) src) s = .next (s.settled x)
    b.link.state ≠ .withdrawn →
    ((∀ r, b.lot? lot = some r → r.state.custody = false) → dispose b) ∧
    (∀ r i, b.lot? lot = some r → r.state.custody = true → b.link.freeAt i → r.ending = false →
      let answered := fun (x : Blocks) (code : Nat) => dispose (x.placed own i ⟨.evaluator, lot, .disposed lot (holdKindCode k) code src⟩)
      (r.hasHold k = false → answered b 9) ∧
      (k = .family → r.hasHold k = true → answered b 10) ∧
      (r.hasHold k = true → k ≠ .family → d = .scrap → r.state = .awarded ∨ r.state = .outbound → answered b 8) ∧
      (r.hasHold k = true → k ≠ .family → k ≠ .recon → (k = .sites → s.image.minSites ≤ b.td.enabledCount) → d = .resume →
        r.state = .awaiting ∨ r.state = .queued ∨ r.state = .finished →
        let off := { b with lots := b.lots.map (fun (y : LotRecord) => if y.lot == lot then
          { y with
            holds := y.holds.filter (fun h => h.kind != k)
            disposedHolds := min 255 (y.disposedHolds + 1)
            suppressYield := if k = .yield then true else y.suppressYield
            suppressBins := if k = .bin then y.suppressBins ++
              (((r.hold? .bin).map (·.bins)).getD []).filter (fun n => !y.suppressBins.contains n) else y.suppressBins }
          else y) }
        let noted := fun (x : Blocks) => x.note (.holdDisposed lot k (some .resume) (.station src))
        let stays := r.familyScope = false ∨ (∃ h ∈ r.holds, h.scope = .family ∧ h.kind ≠ k) ∨ b.ownsEntry r = false
        (stays → answered (noted off) 0) ∧
        (¬stays → k = .yield ∨ k = .bin → b.sound → ∃ x : Blocks, off.familyScopeEnded x s.ctx r.family lot ∧
          (∀ j, x.link.freeAt j → dispose ((noted x).placed own j ⟨.evaluator, lot, .disposed lot (holdKindCode k) 0 src⟩)) ∧
          (x.link.requests = [] → (∀ y ∈ x.link.slots, y ≠ none) → dispose (noted x))))) ∧
    (∀ (q : RemoteDisposition) (code : ReplyCode), b.remote = some q →
      let disposed := fun (l : Nat) (kind : HoldKind) (st : Nat) (x : Blocks) =>
        exec (.disposedHeard src l (holdKindCode kind) (replyCodeNumber code) st) s = .next (s.settled x)
      (1 ≤ q.lot → q.lot ≤ 4294967295 → 1 ≤ own → own ≤ 62 → disposed q.lot q.kind own
        (({ b with remote := none } : Blocks).note (.disposeResult q.lot q.kind q.disposition (.code code)))) ∧
      (lot ≠ q.lot ∨ k ≠ q.kind → 1 ≤ own → own ≤ 62 → disposed lot k own b) ∧
      (∀ st, 1 ≤ q.lot → q.lot ≤ 4294967295 → 1 ≤ st → st ≤ 62 → st ≠ own → disposed q.lot q.kind st b)) ∧
    (∀ code : ReplyCode, b.remote = none →
      exec (.disposedHeard src lot (holdKindCode k) (replyCodeNumber code) src) s = .next (s.settled b))

/-! ## Expiries -/

/-- The deadlines of an offer and of a transfer (R59, R61 to R65, R75, R78): the re-offer deadline ends; a window whose OFFER is
not yet sent is taken back, one with no bid is unsuccessful, one won here queues the lot, one won elsewhere awards it; an AWARD
unanswered is unsuccessful; a bid record's life ends; an arrival that does not come is declined and has no deadline from then on
(log 38). An unsuccessful offer at the limit strands the lot. A window won here queues the lot with or without the own bid record
(R61 and R64 ask for none), also with 8 commitments (the model's choice, log 50: R6 says that they never exceed 8). The command
moves the clock to the deadline, or is taken late at the present clock (log 2). -/
def Obligations.OfferDeadlinesExpire : Prop :=
  ∀ (s : State) (lot t : Nat), s.live = true →
    let e := s.elapseTo t
    let b := e.blocks
    let unbid := fun (x : Blocks) => x.bids = b.bids.filter (fun q => q.lot != lot)
    (∀ q, b.bids.find? (fun q => q.lot == lot) = some q → t = q.sentAt.getD q.created + 15000 →
      ∃ x : Blocks, exec (.bidRecordExpiry lot) s = .next (e.settled x) ∧ unbid x ∧ x.link.cancelled (Frame.isBid lot)) ∧
    ∀ r, s.blocks.lot? lot = some r →
    let reoffer := some (Deadline.mk .reoffer (e.clock + s.image.reofferInterval * 1000))
    let failed := fun (x : Blocks) (mark : Option Nat) =>
      let n := min 15 (r.attempts + 1)
      b.rewrote x lot { r with
        state := .awaiting, peer := none, attempts := n, offer := none, awardDue := false, dossierSend := none
        recallMark := mark, stranded := r.stranded || decide (s.image.attemptLimit ≤ n)
        deadline := if s.image.attemptLimit ≤ n then none else reoffer } ∧
      (s.image.attemptLimit ≤ n → b.op.notices.length < 16 → Notice.stranded lot n ∈ x.op.notices)
    (r.deadline = some ⟨.reoffer, t⟩ → ∃ x : Blocks, exec (.reofferDeadline lot) s = .next (e.settled x) ∧
      x = { b with lots := x.lots } ∧ b.rewrote x lot { r with deadline := none }) ∧
    (∀ f : OfferState, r.deadline = some ⟨.bidWindow, t⟩ → r.state = .offered → r.offer = some f →
      ∃ x : Blocks, exec (.bidWindowClose lot) s = .next (e.settled x) ∧ unbid x ∧
        x.setup = b.setup ∧ x.td = b.td ∧ x.family = b.family ∧ x.release = b.release ∧ x.custody = b.custody ∧
        (f.frame = .pending → x.link.cancelled (Frame.isOffer lot) ∧
          b.rewrote x lot { r with state := .awaiting, offer := none, deadline := reoffer }) ∧
        (f.frame = .sent → r.held = true ∨ f.best = none → failed x r.recallMark) ∧
        (∀ cost, f.frame = .sent → r.held = false → f.best = some (cost, s.straps.toNat) →
          b.rewrote x lot { r with
            state := .queued, arrival := some e.clock, attempts := 0, stranded := false, peer := none, deadline := none
            offer := none, awardDue := true, recallMark := none }) ∧
        (∀ cost st, f.frame = .sent → r.held = false → f.best = some (cost, st) → st ≠ s.straps.toNat →
          b.rewrote x lot { r with
            state := .awarded, peer := some st, offer := none, awardDue := true, dossierSend := some .waiting
            recallMark := none, deadline := some ⟨.acceptTimeout, e.clock + s.image.acceptTimeout * 1000⟩ })) ∧
    (r.deadline = some ⟨.acceptTimeout, t⟩ → r.state = .awarded →
      ∃ x : Blocks, exec (.acceptTimeout lot) s = .next (e.settled x) ∧ failed x none ∧
        x.custody = { b.custody with sendList := b.custody.sendList.filter (fun l => l != lot) } ∧
        x.link.cancelled (fun f => f.isAward lot || f.isDossier lot)) ∧
    (∀ peer, r.deadline = some ⟨.arrivalTimeout, t⟩ → r.state = .inbound → r.peer = some peer →
      (∀ a ∈ b.custody.answers, a.lot = lot → a.kind ≠ .decline) →
      ∃ x : Blocks, exec (.arrivalTimeout lot) s = .next (e.settled (x.note (.arrivalCancelled lot .timeout))) ∧
        b.rewrote x lot { r with deadline := none } ∧
        x.custody.answers = b.custody.answers.filter (fun a => !(a.lot == lot && a.kind == .accept)) ++ [⟨lot, .decline, peer⟩] ∧
        x.link.cancelled (Frame.isAnswer lot .accept))

/-- The expiries of release and roll call (R154, R165, R172, R174, R177, R178): the retry time lets the lot be tried again; the
end of a window whose INTENT was sent ships the lot, with its entry in the released ring and its SHIPPED placed, or placed again 1
s later; one whose INTENT was not sent is abandoned; a refused SHIPPED, the earliest of its lot, or ROLLCALL is placed again; the
end of the roll-call window makes the unanswered entries STALE, each with its notice in the order of the list (log 84), and clears
UNSETTLED; an unanswered remote disposition ends, and its own DISPOSE, told by its placement number (log 62), is cancelled if a
slot still holds it. A frame's placement number is one above the count, and the ring entry keeps that of its SHIPPED (the model's
choice, log 27). A lot that is ending does not keep SATURATED set at the end of the window (the model's choice, log 24). Where
SATURATED is still set then and the list has a free place, a new roll call is started (R165), its ROLLCALL placed, or placed again
1 s later. The command moves the clock to the deadline, or is taken late at the present clock (log 2). -/
def Obligations.ReleaseAndRollcallExpire : Prop :=
  ∀ (s : State) (t : Nat), s.live = true → (s.blocks.lots.map (·.lot)).Nodup →
    let e := s.elapseTo t
    let b := e.blocks
    (∀ r, b.lot? r.lot = some r → r.state = .finished → r.releaseRetry = some t →
      exec (.releaseRetryTime r.lot) s = .next (e.settled b)) ∧
    (∀ r, b.lot? r.lot = some r → r.state = .releasing → r.deadline = some ⟨.releaseWindow, t⟩ → r.intent = some .sent →
      ∃ x : Blocks, exec (.releaseWindowClose r.lot) s = .next (e.settled x) ∧ x.lot? r.lot = none ∧
        (∀ y ∈ x.lots, y.lot ≠ r.lot) ∧
        x.release.ring.map (fun y => (y.lot, y.family, y.good, y.time, y.due)) =
          (if b.release.ring.length < 8 then b.release.ring else b.release.ring.drop 1).map
            (fun y => (y.lot, y.family, y.good, y.time, y.due)) ++ [(r.lot, r.family, r.lastGood, e.clock, true)] ∧
        b.shippedTried x r e.clock ∧ (b.op.notices.length < 16 →
          Notice.shipped r.lot r.family r.lastGood r.entryQty r.route.length ∈ x.op.notices)) ∧
    (∀ r, b.lot? r.lot = some r → r.state = .releasing → r.deadline = some ⟨.releaseWindow, t⟩ → r.intent = some .pending →
      ∃ x : Blocks, exec (.releaseWindowClose r.lot) s = .next (e.settled (x.note (.releaseAbandoned r.lot .notSent))) ∧
        b.rewrote x r.lot { r with
          state := .finished, intent := none, deadline := none, releaseRetry := some (e.clock + 1000) } ∧
        x.link.cancelled (Frame.isIntent r.lot) ∧ x = { b with lots := x.lots, link := { b.link with slots := x.link.slots } }) ∧
    (∀ (y : RingEntry) (i j : Nat), b.release.ring[j]? = some y → y.due = true → y.retry = some t →
      (∀ (k t' : Nat) (z : RingEntry), b.release.ring[k]? = some z → z.lot = y.lot → z.due = true → z.retry = some t' →
        t < t' ∨ (t = t' ∧ j ≤ k)) →
      b.link.state ≠ .withdrawn → b.link.freeAt i →
      exec (.shippedRetry y.lot) s = .next (e.settled
        { b.placed s.straps.toNat i ⟨.release, y.lot, .shipped y.lot y.family y.good⟩ with
          release := { b.release with ring := b.release.ring.modify j (fun x =>
            { x with retry := none, placement := some (b.link.placements + 1) }) } })) ∧
    (∀ i, b.family.rollcallRetry = some t → b.family.rollcallDue = true → b.link.state ≠ .withdrawn → b.link.freeAt i →
      exec .rollcallRetry s = .next (e.settled { b.placed s.straps.toNat i ⟨.family, 0, .rollcall⟩ with
        family := { b.family with rollcallRetry := none } })) ∧
    (b.family.rollcallRetry = some t → b.family.rollcallDue = true → b.link.requests = [] → (∀ x ∈ b.link.slots, x ≠ none) →
      exec .rollcallRetry s = .next (e.settled { b with
        family := { b.family with rollcallRetry := some (e.clock + 1000) } })) ∧
    (b.family.window = some t →
      ∃ x : Blocks, exec .rollcallWindowEnd s = .next (e.settled x) ∧ x.family.window = none ∧ x.family.unsettled = false ∧
        x.family.entries = b.family.entries.map (fun y => if y.state = .unconfirmed then { y with state := .stale } else y) ∧
        (((b.family.entries.filter (fun y => y.state == .unconfirmed)).map
          (fun y => Notice.staleFamily y.family y.lot y.raiser)).foldl Blocks.note b).op.notices <+: x.op.notices ∧
        (b.family.refusalMark = true ∨ b.everyHoldListed = false → x.family.saturated = b.family.saturated) ∧
        (b.family.refusalMark = false → b.everyHoldListed = true → x.family.saturated = false) ∧
        (let again := x.family.saturated = true ∧ b.family.entries.length < 16 ∧ b.family.rollcallDue = false
         (again → b.rollcallStarted x e.clock) ∧ (¬again → b.rollcallKept x)) ∧
        ∀ r ∈ x.lots, r.ending = false → r.hasHold .family = true → x.family.holdsFamily r.family = true) ∧
    (∀ q, b.remote = some q → q.deadline = t →
      ∃ x : Blocks, exec .remoteAnswerTimeout s = .next (e.settled
          (x.note (.disposeResult q.lot q.kind q.disposition .noAnswer))) ∧
        x = { b with
          remote := none
          link := { b.link with slots := b.link.slots.map (fun y => y.bind (fun f =>
            if f.frame.isDispose && f.placement == q.placement then
              (if f.onWire then some { f with cancelMark := true } else none)
            else some f)) } })

/-! ## The setup of the cell -/

/-- The tester's answers (R87 to R90, R98, R101, R106, R108, R109): the command in flight ends; a preload or an evict of the
operator sets its slot and queues a SLOT notice, a preload that failed leaving its program with the slot (log 64); a step goes on,
or faults with LOAD_FAILED or CHECK_FAIL; an EVICTED of a step sends its LOAD; with a HANDLER_FAULT deferred the answer sets the
slot and the fault is taken (R106); a SELECTED of the chain end lets an unheld lot enter IN_TEST and waits for a held one (R103);
a SELECTED of another slot than a step or the chain end has asked for, or of one that does not hold the program, faults the engine
with PROGRAM_MISSING (R101, R103); an answer to no command sets what R90 gives it. -/
def Obligations.TesterAnswersAreTaken : Prop :=
  ∀ (s : State) (n : Nat) (p : ProgSlot), s.takesPort .tester = true → 1 ≤ n → s.blocks.setup.slots[n - 1]? = some p →
    let b := s.blocks
    let u := s.blocks.setup
    let took := fun (c : Instr) (x : Blocks) => exec c s = .next (s.settled x)
    let ended := fun (x : Blocks) (q : ProgSlot) => x.setup.inFlight = none ∧ x.setup.operatorDeadline = none ∧
      x.setup.slots = u.slots.set (n - 1) q ∧ x.setup.thermal = u.thermal ∧ x.setup.kitTaken = u.kitTaken ∧
      x.setup.engine = u.engine ∧ x.setup.walk = u.walk ∧ x = { b with setup := x.setup }
    -- the operator's commands, with no walk waiting
    (∀ program, u.walk = none → u.inFlight = some (.load n program, .operator) →
      (∃ x : Blocks, took (.loaded n) (x.note (.slot n .resident (some program))) ∧
        ended x ⟨.resident, some program, if p.program = some program then p.correlated else none⟩) ∧
      ∃ x : Blocks, took (.loadFailed n) (x.note (.slot n .invalid (some program))) ∧
        ended x ⟨.invalid, some program, if p.program = some program then p.correlated else none⟩) ∧
    (u.walk = none → u.inFlight = some (.evict n, .operator) →
      ∃ x : Blocks, took (.evicted n) (x.note (.slot n .empty none)) ∧ ended x ⟨.empty, none, none⟩ ∧
        x.setup.lru = u.lru.filter (· != n)) ∧
    -- a step's commands
    (∀ (w : Walk) (k program : Nat), u.walk = some w → w.inStep = true → w.deferred = none → w.current = some k →
      u.engine = .running → u.inFlight = some (.load n program, .step) → (s.ctx.stepRecord k).kind = some .loadProgram →
      (∃ x : Blocks, took (.loaded n) (x.walkFrom s.ctx (s.ctx.stepRecord k).next) ∧
        x.setup.inFlight = none ∧ x.setup.walk = some { w with inStep := false, deadline := none } ∧
        x.setup.slots = u.slots.set (n - 1)
          ⟨.resident, some program, if p.program = some program then p.correlated else none⟩ ∧ x = { b with setup := x.setup }) ∧
      ∃ x : Blocks, took (.loadFailed n) x ∧ b.faultedFrom x w .loadFailed s.clock ∧ x.setup.slotState n = .invalid ∧
        x.setup.inFlight = none) ∧
    (∀ (w : Walk) (k : Nat) (r : LotRecord), u.walk = some w → w.inStep = true → w.deferred = none → w.current = some k →
      b.lot? w.lot = some r → u.inFlight = some (.evict n, .step) →
      let program := stepProgram (s.ctx.stepRecord k) r.program
      ∃ x : Blocks, took (.evicted n) x ∧ x.setup.inFlight = some (.load n program, .step) ∧
        x.setup.slots = u.slots.set (n - 1) ⟨.loading, some program, none⟩ ∧ x.setup.walk = u.walk ∧
        x.ports = { b.ports with toTester := b.ports.toTester ++ [.load n program] } ∧
        x = { b with setup := x.setup, ports := x.ports }) ∧
    (∀ (w : Walk) (r : LotRecord), u.walk = some w → w.inStep = true → b.lot? w.lot = some r → u.inFlight = some (.select n, .step) →
      u.residentSlot? r.program = some n →
      ∃ x : Blocks, took (.selected n) x ∧ x.setup.active = some n ∧ x.setup.lru = u.lru.filter (· != n) ++ [n] ∧
        x.setup.inFlight = some (.check, .step) ∧ x.setup.slots = u.slots ∧ x.setup.walk = u.walk ∧
        x.ports = { b.ports with toTester := b.ports.toTester ++ [.check] } ∧
        x.td = (if u.active = some n then b.td else { b.td with timerRing := [] }) ∧
        x = { b with setup := x.setup, ports := x.ports, td := x.td }) ∧
    (∀ (w : Walk) (k : Nat) (o : Origin), u.walk = some w → w.inStep = true → w.deferred = none → w.current = some k →
      u.engine = .running → u.inFlight = some (.check, o) → u.active = some n → (s.ctx.stepRecord k).kind = some .correlate →
      (∃ x : Blocks, took .checkPass (x.walkFrom s.ctx (s.ctx.stepRecord k).next) ∧
        x.setup.slots = u.slots.set (n - 1) { p with correlated := some s.clock } ∧ x.setup.inFlight = none ∧
        x.setup.walk = some { w with inStep := false, deadline := none } ∧ x = { b with setup := x.setup }) ∧
      ∃ x : Blocks, took .checkFail x ∧ b.faultedFrom x w .checkFail s.clock ∧ x.setup.slotState n = .invalid ∧
        x.setup.active = none) ∧
    -- a deferred HANDLER_FAULT
    (∀ (w : Walk) (program : Nat), u.walk = some w → w.inStep = true → w.deferred = some .handlerFault →
      (u.inFlight = some (.load n program, .step) →
        (∃ x : Blocks, took (.loaded n) x ∧ b.faultedFrom x w .handlerFault s.clock ∧ x.setup.inFlight = none ∧
          x.ports = b.ports ∧ x.setup.slots = u.slots.set (n - 1)
            ⟨.resident, some program, if p.program = some program then p.correlated else none⟩) ∧
        ∃ x : Blocks, took (.loadFailed n) x ∧ b.faultedFrom x w .handlerFault s.clock ∧ x.setup.slotState n = .invalid ∧
          x.setup.inFlight = none ∧ x.ports = b.ports) ∧
      (u.inFlight = some (.evict n, .step) →
        ∃ x : Blocks, took (.evicted n) x ∧ b.faultedFrom x w .handlerFault s.clock ∧ x.setup.inFlight = none ∧
          x.ports = b.ports ∧ x.setup.slots = u.slots.set (n - 1) ⟨.empty, none, none⟩)) ∧
    -- the SELECT of the chain end
    (∀ (w : Walk) (r : LotRecord), u.walk = some w → w.begun = true → w.current = none → w.inStep = false →
      u.engine = .running ∨ u.engine = .pausing → b.lot? w.lot = some r → u.inFlight = some (.select n, .chainEnd) →
      let selected := { u with
        inFlight := none, operatorDeadline := none, active := some n, lru := u.lru.filter (· != n) ++ [n]
        walk := some { w with deadline := none } }
      let ring := if u.active = some n then b.td.timerRing else []
      (u.residentSlot? r.program = some n → r.held = true →
        took (.selected n) { b with setup := selected, td := { b.td with timerRing := ring } }) ∧
      (u.residentSlot? r.program = some n → r.held = false → r.state = .setup → b.testLot? = none → b.td.touchdown = none →
        s.image.minSites ≤ b.td.enabledCount →
        ∃ x : Blocks, took (.selected n) x ∧ b.rewrote x w.lot { r with state := .inTest } ∧ x = { b with
          lots := x.lots, setup := { selected with engine := .idle, walk := none }
          td := { b.td with
            timerRing := ring
            latch := if s.pins.testerFault || s.pins.handlerFault then b.td.latch else false } })) ∧
    -- a SELECTED of another slot than the SELECT of a step or of the chain end, or of one that has not the program
    (∀ (w : Walk) (r : LotRecord) (m : Nat) (o : Origin), u.walk = some w → w.deferred = none → b.lot? w.lot = some r →
      r.state = .setup → u.inFlight = some (.select m, o) → (m ≠ n ∨ u.residentSlot? r.program ≠ some n) →
      ((o = .step ∧ w.inStep = true) ∨
        (o = .chainEnd ∧ w.begun = true ∧ w.current = none ∧ (u.engine = .running ∨ u.engine = .pausing))) →
      ∃ x : Blocks, took (.selected n) x ∧ ({ b with td := x.td } : Blocks).faultedFrom x w .programMissing s.clock ∧
        x.setup.inFlight = none ∧ x.setup.active = (if p.state = .resident then some n else none) ∧ x.setup.slots = u.slots ∧
        x.ports = b.ports ∧
        x.td = if p.state = .resident ∧ u.active ≠ some n then { b.td with timerRing := [] } else b.td) ∧
    -- answers to no command in flight
    (u.inFlight = none →
      took (.loaded n) b ∧ took (.loadFailed n) b ∧ took .checkPass b ∧
      (p.state = .resident →
        ∃ x : Blocks, took (.selected n) x ∧ x.setup = { u with active := some n, lru := u.lru.filter (· != n) ++ [n] } ∧
          x = { b with setup := x.setup, td := x.td }) ∧
      (p.state ≠ .resident → took (.selected n) { b with setup := { u with active := none } }) ∧
      (p.state = .loading → took (.evicted n) b) ∧
      (p.state ≠ .loading →
        ∃ x : Blocks, took (.evicted n) x ∧ x.setup.slots = u.slots.set (n - 1) ⟨.empty, none, none⟩ ∧ x = { b with setup := x.setup }) ∧
      (u.active = some n →
        ∃ x : Blocks, took .checkFail x ∧ x.setup.slots = u.slots.set (n - 1) ⟨.invalid, p.program, p.correlated⟩ ∧
          x.setup.active = none ∧ x = { b with setup := x.setup }) ∧
      (u.active = none → took .checkFail b))

/-- The engine's deadlines (R103, R106, R108, R109): a step that is not done in its time faults with TIMEOUT, or with the
HANDLER_FAULT deferred before; a LOAD of it is cancelled, and its slot, or that of an EVICT, is INVALID; a SET_BAND stands UNKNOWN
out of RAMPING and AT_SETPOINT with its soak reloaded out of SOAKING; a CHECK or SELECT ends. A chain end whose slot is not
selected in time faults too, its SELECT ended. A command of the operator that is not answered ends, its slot INVALID with a SLOT
notice, a preload with CANCEL. The command moves the clock to the deadline, or is taken late at the present clock (log 2). -/
def Obligations.EngineDeadlinesExpire : Prop :=
  ∀ (s : State) (t : Nat), s.live = true →
    let e := s.elapseTo t
    let b := e.blocks
    (∀ (w : Walk), b.setup.walk = some w → w.inStep = true → w.deadline = some t →
      ∃ x : Blocks, exec .stepTimeout s = .next (e.settled x) ∧ b.faultedFrom x w (w.deferred.getD .timeout) e.clock ∧
        b.flightEnded x e.ctx w true) ∧
    (∀ (w : Walk), b.setup.walk = some w → w.begun = true → w.current = none → w.inStep = false → b.setup.engine = .running →
      w.deadline = some t → w.deferred = none →
      ∃ x : Blocks, exec .selectionDeadline s = .next (e.settled x) ∧ b.faultedFrom x w .timeout e.clock ∧
        b.flightEnded x e.ctx w true) ∧
    (∀ n program, b.setup.operatorDeadline = some t → b.setup.inFlight = some (.load n program, .operator) → b.setup.walk = none →
      exec .operatorCommandTimeout s = .next (e.settled (({ b with
        setup := { b.setup with inFlight := none, operatorDeadline := none }
        ports := { b.ports with toTester := b.ports.toTester ++ [.cancel n] } } : Blocks).note
          (.slot n (b.setup.slotState n) ((b.setup.slot? n).bind (·.program)))))) ∧
    (∀ n, b.setup.operatorDeadline = some t → b.setup.inFlight = some (.evict n, .operator) → b.setup.walk = none →
      exec .operatorCommandTimeout s = .next (e.settled (({ b with
        setup := { b.setup with inFlight := none, operatorDeadline := none } } : Blocks).note
          (.slot n (b.setup.slotState n) ((b.setup.slot? n).bind (·.program))))))

/-- Temperature and kit (R91 to R93, R99, R129): AT_TEMP of the band set out for makes it AT_SETPOINT, or begins the soak of the
step in flight, a soak of 0 completing it; the end of the soak is READY and completes the step in flight, which sets the band mark
and goes on in RUNNING, or stands PAUSED in PAUSING; TEMP_LOST is UNKNOWN, sends SETPOINT again in a SET_BAND step, faults a walk
whose band mark is set, aborts the TESTING touchdown of a lot in test, its units void, and holds the lot, THERMAL in IN_TEST and
SETUP in the void pass (R129); kit lines that have held their value for 50 ms give the kit taken; a change of it completes a
CONFIRM_KIT step, faults a walk past it, also with another step in flight, which then ends (R100, R106; the slot of a LOAD or
EVICT is INVALID, with no CANCEL: the model's choice, log 14), and holds a lot in test, the void pass included, SETUP; a
CONFIRM_KIT step completes also where an earlier one has set the kit mark (the model's reading, log 41). SOAK_END and KIT_TAKEN
move the clock to their time (log 2). The notices of one event stand in the order of the text of its rules (log 82). -/
def Obligations.TemperatureAndKit : Prop :=
  ∀ s : State, s.live = true →
    let b := s.blocks
    let th := s.blocks.setup.thermal
    let warm := fun (x : Thermal) => { b with setup := { b.setup with thermal := x } }
    let inSetBand := ∃ w k, b.setup.walk = some w ∧ w.inStep = true ∧ w.current = some k ∧
      (s.ctx.stepRecord k).kind = some .setBand
    let completes := fun (c : Instr) (e : State) (w : Walk) (k : Nat) =>
      let done := { e.blocks with setup := { b.setup with
        thermal := { th with phase := .ready, soak := 0 }
        walk := some { w with bandMark := true, inStep := false, deadline := none } } }
      (b.setup.engine = .running → exec c s = .next (e.settled (done.walkFrom e.ctx (s.ctx.stepRecord k).next))) ∧
      (b.setup.engine = .pausing → exec c s = .next (e.settled { done with setup := { done.setup with engine := .paused } }))
    let inBandStep := fun (w : Walk) (k : Nat) => b.setup.walk = some w ∧ w.inStep = true ∧ w.current = some k ∧
      (s.ctx.stepRecord k).kind = some .setBand
    (∀ band, s.blocks.ports.handlerIgnoring = false → bandOfCode band ≠ th.band ∨ bandOfCode band = none →
      exec (.atTemp band) s = .next (s.settled b)) ∧
    (∀ band, s.blocks.ports.handlerIgnoring = false → th.band = some band → ¬inSetBand →
      th.phase = .ramping ∨ th.phase = .unknown →
      exec (.atTemp (bandCode band)) s = .next (s.settled (warm { th with phase := .atSetpoint }))) ∧
    (∀ band w r, s.blocks.ports.handlerIgnoring = false → th.band = some band → inSetBand → th.phase = .ramping →
      b.setup.walk = some w → b.lot? w.lot = some r → (s.ctx.lotInsertion r).soakMinutes ≠ 0 →
      exec (.atTemp (bandCode band)) s = .next (s.settled (warm { th with
        phase := .soaking, soak := (s.ctx.lotInsertion r).soakMinutes * 60000 }))) ∧
    (∀ band w k r, s.blocks.ports.handlerIgnoring = false → th.band = some band → inBandStep w k → th.phase = .ramping →
      b.lot? w.lot = some r → (s.ctx.lotInsertion r).soakMinutes = 0 → completes (.atTemp (bandCode band)) s w k) ∧
    (∀ w k, th.phase = .soaking → inBandStep w k → completes .soakEnd (s.elapse th.soak) w k) ∧
    (∀ w k r, s.blocks.ports.handlerIgnoring = false → inBandStep w k → b.lot? w.lot = some r → b.testLot? = none →
      let target := (bandOfCode (s.ctx.stepRecord k).param).getD r.band
      exec .tempLost s = .next (s.settled { warm ⟨some target, .ramping, 0⟩ with
        ports := { b.ports with toHandler := b.ports.toHandler ++ [.setpoint target] } })) ∧
    (∀ w, s.blocks.ports.handlerIgnoring = false → ¬inSetBand → b.setup.walk = some w → w.bandMark = true → w.deferred = none →
      b.setup.engine = .running ∨ b.setup.engine = .pausing ∨ b.setup.engine = .paused → b.testLot? = none →
      ∃ x : Blocks, exec .tempLost s = .next (s.settled x) ∧
        (warm { th with phase := .unknown, soak := 0 }).faultedFrom x w .tempLost s.clock ∧
        x.setup.thermal = { th with phase := .unknown, soak := 0 }) ∧
    (th.phase = .soaking → ¬inSetBand → s.clock + th.soak < Config.clockEnd →
      exec .soakEnd s = .next ((s.elapse th.soak).settled { (s.elapse th.soak).blocks with
        setup := { b.setup with thermal := { th with phase := .ready, soak := 0 } } })) ∧
    (s.blocks.ports.handlerIgnoring = false → ¬inSetBand → b.testLot? = none →
      (∀ w, b.setup.walk = some w → w.bandMark = false ∨ b.setup.engine = .faulted) →
      exec .tempLost s = .next (s.settled (warm { th with phase := .unknown, soak := 0 }))) ∧
    (∀ r a, s.blocks.ports.handlerIgnoring = false → b.setup.walk = none → b.testLot? = some r →
      r.state = .inTest ∨ r.voidPassRuns = true → r.ending = false → r.account = some a → (b.lots.map (·.lot)).Nodup →
      let kind := if r.state = .inTest then HoldKind.thermal else .setup
      r.hasHold kind = false →
      let lost := { b.setup with thermal := { th with phase := .unknown, soak := 0 } }
      let held := r.holds ++ [⟨kind, r.insertionNo, s.clock, .lot, none, []⟩]
      ∃ x : Blocks, exec .tempLost s = .next (s.settled x) ∧
        ((∀ t, b.td.touchdown = some t → t.stage ≠ .testing) → b.rewrote x r.lot { r with holds := held } ∧
          x = { b with lots := x.lots, setup := lost, td := { b.td with latch := true }, op := x.op }) ∧
        ∀ t, b.td.touchdown = some t → t.stage = .testing → x.setup = lost ∧
          x.td = { b.td with
            latch := true, touchdown := some { t with stage := .sorting, sequence := none, deadline := none, busy := 0 } } ∧
          b.rewrote x r.lot { r with
            holds := held
            account := some (match a.phase with
              | .main => { a with inSockets := a.inSockets - t.active.length, voidOpen := a.voidOpen + t.active.length }
              | .voidPass => { a with inSockets := a.inSockets - t.active.length, voidFinal := a.voidFinal + t.active.length }) } ∧
          x.ports = { b.ports with toHandler := b.ports.toHandler ++ [.sort (allSites.map (fun n =>
            if t.active.contains n || (t.voidSites.map (·.1)).contains n then .void else .none))] }) ∧
    (∀ t, b.setup.kitSince = some t → s.clock + 50 < Config.clockEnd → t ≤ s.clock →
      let e := s.elapseTo (t + 50)
      (b.setup.kitTaken = s.pins.kitLines.toNat →
        exec .kitTaken s = .next (e.settled { e.blocks with setup := { e.blocks.setup with kitSince := none } })) ∧
      (b.setup.kitTaken ≠ s.pins.kitLines.toNat → b.setup.walk = none → b.testLot? = none →
        exec .kitTaken s = .next (e.settled { e.blocks with setup := { e.blocks.setup with
          kitSince := none, kitTaken := s.pins.kitLines.toNat } })) ∧
      (∀ w r, b.setup.kitTaken ≠ s.pins.kitLines.toNat → b.setup.walk = some w → b.testLot? = none →
        b.lot? w.lot = some r →
        let taken := { e.blocks.setup with kitSince := none, kitTaken := s.pins.kitLines.toNat }
        (∀ k, w.inStep = true → w.current = some k → (s.ctx.stepRecord k).kind = some .confirmKit → b.setup.engine = .running →
          s.pins.kitLines.toNat = (if (s.ctx.stepRecord k).param = 0 then (s.ctx.recipe r.product).packageClass
            else (s.ctx.stepRecord k).param) →
          exec .kitTaken s = .next (e.settled (({ e.blocks with setup := { taken with
            walk := some { w with kitMark := true, inStep := false, deadline := none } } } : Blocks).walkFrom e.ctx
              (s.ctx.stepRecord k).next))) ∧
        (w.inStep = false ∨ (∀ k, w.current = some k → (s.ctx.stepRecord k).kind ≠ some .confirmKit) → w.kitMark = true →
          w.deferred = none → b.setup.engine = .running ∨ b.setup.engine = .pausing ∨ b.setup.engine = .paused →
          ∃ x : Blocks, exec .kitTaken s = .next (e.settled x) ∧
            ({ e.blocks with setup := taken } : Blocks).faultedFrom x w .kitChanged e.clock ∧
            ({ e.blocks with setup := taken } : Blocks).flightEnded x e.ctx w false)) ∧
      (∀ r, b.setup.kitTaken ≠ s.pins.kitLines.toNat → b.setup.walk = none → b.testLot? = some r →
        r.state = .inTest ∨ r.voidPassRuns = true → (b.lots.map (·.lot)).Nodup → r.ending = false → r.hasHold .setup = false →
        ∃ x : Blocks, exec .kitTaken s = .next (e.settled (x.note (.kitChanged b.setup.kitTaken s.pins.kitLines.toNat))) ∧
          x.setup.kitTaken = s.pins.kitLines.toNat ∧ x.td.latch = true ∧
          x.lot? r.lot = some { r with holds := r.holds ++ [⟨.setup, r.insertionNo, e.clock, .lot, none, []⟩] }))

/-! ## The touchdown cycle -/

/-- TD_READY (R113, R121 to R123): with a touchdown in flight it is an error of the port; without a lot its units are sorted VOID;
in the main pass every unit is placed, those on ENABLED sites go into the sockets and the others are void; in the void pass they
are drawn from the voids, and those that no void is left for are sorted VOID, uncounted and noticed; with the latch clear the
touchdown starts, with it set it is parked; a count above the expected raises RECON once. -/
def Obligations.TdReadyPlacesTheUnits : Prop :=
  ∀ (s : State) (mask : BitVec 8), s.takesPort .handler = true → (s.blocks.lots.map (·.lot)).Nodup →
    let b := s.blocks
    let ready := fun (x : Blocks) => exec (.tdReady mask) s = .next (s.settled x)
    let sites := allSites.filter (fun n => mask.getLsbD (n - 1))
    let on := sites.filter (fun n => b.td.site n == .enabled)
    let off := sites.filter (fun n => b.td.site n != .enabled)
    let sorted := fun (x : Blocks) (t : Touchdown) => x.td = { b.td with touchdown := some t } ∧ x.ports = { b.ports with
      toHandler := b.ports.toHandler ++ [.sort (allSites.map (fun n => if sites.contains n then .void else .none))] }
    (b.td.touchdown.isSome = true → ready (b.note (.portError .handler .tdReady))) ∧
    (b.td.touchdown = none → (∀ r, b.testLot? = some r → r.state = .closing ∧ r.voidPassRuns = false) →
      ∃ x : Blocks, ready (x.note (.orphanUnits sites)) ∧ x = { b with td := x.td, ports := x.ports } ∧
        sorted x ⟨.sorting, .orphan, [], sites.map (fun n => (n, .uncounted)), none, none, 0, false⟩) ∧
    (∀ r a, b.td.touchdown = none → b.testLot? = some r → r.state = .inTest → r.account = some a →
      a.placedMain + sites.length ≤ 65535 → r.ending = false →
      let a' := { a with
        placedMain := a.placedMain + sites.length, inSockets := a.inSockets + on.length, voidOpen := a.voidOpen + off.length }
      let t := Touchdown.mk .parked .counted on (off.map (fun n => (n, .voidOpen))) none none 0 false
      (((a.placedMain + sites.length : Nat) : Int) ≤ (a.declared : Int) + a.adj ∨ a.excess = true →
        ∃ x : Blocks, ready x ∧ b.rewrote x r.lot { r with account := some a' } ∧
          x = { b with lots := x.lots, td := x.td, ports := x.ports } ∧
          (on = [] → sorted x { t with stage := .sorting }) ∧
          (on ≠ [] → b.td.latch = true → x.td = { b.td with touchdown := some t } ∧ x.ports = b.ports) ∧
          (on ≠ [] → b.td.latch = false →
            let n := (b.td.sequence + 1) % 256
            x.td = { b.td with sequence := n, touchdown := some { t with
              stage := .testing, sequence := some n
              deadline := some (s.clock + 4 * (s.ctx.insertion r.product r.insertionNo).nominalMs) } } ∧
            x.ports = { b.ports with toTester := b.ports.toTester ++ [.tdStart n on] })) ∧
      ((a.declared : Int) + a.adj < ((a.placedMain + sites.length : Nat) : Int) → a.excess = false → r.hasHold .recon = false →
        ∃ x : Blocks, ready x ∧ x.td.latch = true ∧ b.rewrote x r.lot { r with
          account := some { a' with excess := true }
          holds := r.holds ++ [⟨.recon, r.insertionNo, s.clock, .lot,
            some (((a.placedMain + sites.length : Nat) : Int), (a.declared : Int) + a.adj), []⟩] } ∧
          (on ≠ [] → x.td.touchdown = some t))) ∧
    (∀ r a, b.td.touchdown = none → b.testLot? = some r → r.state = .closing → r.account = some a → a.voidPass = .running →
      let drawn := sites.take a.voidOpen
      let rest := sites.drop a.voidOpen
      let live := drawn.filter (fun n => b.td.site n == .enabled)
      let dead := drawn.filter (fun n => b.td.site n != .enabled)
      let t := Touchdown.mk .parked .counted live (dead.map (fun n => (n, .voidFinal)) ++ rest.map (fun n => (n, .uncounted)))
        none none 0 false
      ∃ x : Blocks, ready x ∧
        b.rewrote x r.lot { r with account := some { a with
          voidOpen := a.voidOpen - drawn.length, inSockets := a.inSockets + live.length
          voidFinal := a.voidFinal + dead.length } } ∧
        x = { (if rest = [] then b else b.note (.orphanUnits rest)) with lots := x.lots, td := x.td, ports := x.ports } ∧
        (live = [] → sorted x { t with stage := .sorting }) ∧
        (live ≠ [] → b.td.latch = true → x.td = { b.td with touchdown := some t } ∧ x.ports = b.ports) ∧
        (live ≠ [] → b.td.latch = false →
          let n := (b.td.sequence + 1) % 256
          x.td = { b.td with sequence := n, touchdown := some { t with
            stage := .testing, sequence := some n
            deadline := some (s.clock + 4 * (s.ctx.insertion r.product r.insertionNo).nominalMs) } } ∧
          x.ports = { b.ports with toTester := b.ports.toTester ++ [.tdStart n live] }))

/-- TD_RESULT (R113, R124, R128): one whose sequence number is not the touchdown's is ignored; else every active unit leaves
the sockets for its bin or for the voids, a unit with a bin counts as tested at its site, and as good or in the fail run by its
bin, each is sorted into its cup, the busy time joins the timer ring, the record's
sequence, deadline and busy time end (log 47); a lot that is ending is removed with LOT_END once its units are out, its touchdown
going on as ORPHAN (R127, R151; log 18); else the evaluation follows (`EvaluationRaisesTheHolds`). -/
def Obligations.TdResultCountsTheUnits : Prop :=
  ∀ (s : State) (sequence : Nat) (bins : List Nat) (t : Touchdown), s.takesPort .tester = true →
    s.blocks.td.touchdown = some t →
    let b := s.blocks
    let ring := b.td.timerRing ++ [min 65535 t.busy]
    let binOf := fun n => bins.getD (n - 1) 0
    let voids := (t.active.filter (fun n => !(decide (1 ≤ binOf n ∧ binOf n ≤ 15)))).length
    let sort := HandlerMsg.sort (allSites.map (fun n =>
      if t.active.contains n then (if 1 ≤ binOf n ∧ binOf n ≤ 15 then .bin (binOf n) else .void)
      else if (t.voidSites.map (·.1)).contains n then .void else .none))
    (t.stage ≠ .testing ∨ t.sequence ≠ some sequence → exec (.tdResult sequence bins) s = .next (s.settled b)) ∧
    (∀ r a, t.stage = .testing → t.sequence = some sequence → b.testLot? = some r → r.account = some a → r.ending = true →
      a.inSockets = t.active.length → b.family.entry? r.family r.lot = none →
      ∃ x : Blocks, exec (.tdResult sequence bins) s = .next (s.settled x) ∧ x.lot? r.lot = none ∧
        x.td.touchdown = some { t with
          stage := .sorting, kind := .orphan, sequence := none, deadline := none, busy := 0 } ∧
        x.ports = { b.ports with toHandler := b.ports.toHandler ++ [sort, .lotEnd] } ∧
        x = { b with lots := x.lots, td := x.td, ports := x.ports, custody := x.custody, link := x.link }) ∧
    ∀ r a, t.stage = .testing → t.sequence = some sequence → b.testLot? = some r → r.account = some a → r.ending = false →
      (b.lots.map (·.lot)).Nodup → a.bins.length = 15 → (∀ n ∈ t.active, 1 ≤ n ∧ n ≤ 8) →
      ∃ (x : Blocks) (a' : Account), exec (.tdResult sequence bins) s = .next (s.settled (x.evaluate s.ctx r.lot)) ∧
        b.rewrote x r.lot { r with account := some a' } ∧
        (∀ k, 1 ≤ k → k ≤ 15 → a'.bin k = a.bin k + (t.active.filter (fun n => binOf n == k)).length) ∧
        a'.inSockets = a.inSockets - t.active.length ∧
        (a.phase = .main → a'.voidOpen = a.voidOpen + voids ∧ a'.voidFinal = a.voidFinal) ∧
        (a.phase = .voidPass → a'.voidFinal = a.voidFinal + voids ∧ a'.voidOpen = a.voidOpen) ∧
        (let binned := fun n => decide (1 ≤ binOf n ∧ binOf n ≤ 15)
         let good := fun n => (s.ctx.recipe r.product).goodBins.contains (binOf n)
         let units := fun (p : Nat → Bool) (n : Nat) => (t.active.filter (fun m => m == n && binned m && p m)).length
         ∀ n, 1 ≤ n → n ≤ 8 →
           (a.siteTested.length = 8 → siteCount a'.siteTested n = siteCount a.siteTested n + units (fun _ => true) n) ∧
           (a.siteGood.length = 8 → siteCount a'.siteGood n = siteCount a.siteGood n + units good n) ∧
           (a.failRun.length = 8 → t.active.Nodup → siteCount a'.failRun n =
             if n ∈ t.active ∧ binned n = true then (if good n then 0 else min 255 (siteCount a.failRun n + 1))
             else siteCount a.failRun n)) ∧
        a' = { a with
          inSockets := a'.inSockets, bins := a'.bins, voidOpen := a'.voidOpen, voidFinal := a'.voidFinal
          siteTested := a'.siteTested, siteGood := a'.siteGood, failRun := a'.failRun } ∧
        x.td = { b.td with
          touchdown := some { t with stage := .sorting, sequence := none, deadline := none, busy := 0 }
          timerRing := if t.busy = 0 then b.td.timerRing else ring.drop (ring.length - 16) } ∧
        x.ports = { b.ports with toHandler := b.ports.toHandler ++ [sort] } ∧
        x = { b with lots := x.lots, td := x.td, ports := x.ports }

/-- The evaluation after a result, of the main pass or of the void pass (R136 to R142, R158): a fail run at its limit holds the
site; of the sites then ENABLED whose yield lies more than the spread limit below that of the others, the one with the greatest
difference, the lowest at a tie, is HELD SPREAD; a yield below its limit and a bin above its limit hold the lot, and too few
ENABLED sites hold it SITES; a hold in test sets the latch; a YIELD or BIN hold of family scope makes the lot's local entry. The
holds carry the trigger values of R143: good and tested, the first bin that crosses and its count, the enabled and the minimum
sites; every bin that crosses is named in the open BIN hold, and one that joins a hold open before is noticed (R140; the added
bins stand after those it names already, the model's choice, log 72). -/
def Obligations.EvaluationRaisesTheHolds : Prop :=
  ∀ (c : Ctx) (b : Blocks) (r : LotRecord) (a : Account), b.lot? r.lot = some r → r.account = some a → r.ending = false →
    r.state = .inTest ∨ r.state = .closing →
    let rec_ := c.recipe r.product
    let x := b.evaluate c r.lot
    let good := (rec_.goodBins.map a.bin).sum
    let low := rec_.yieldLimit ≠ 0 ∧ r.suppressYield = false ∧ rec_.minSample ≤ a.bins.sum ∧ 0 < a.bins.sum ∧
      good * 1000 < rec_.yieldLimit * a.bins.sum
    (rec_.familyYield = false → rec_.familyBin = false →
      ∃ r', x.lot? r.lot = some r' ∧ r'.account = some a ∧ r'.state = r.state ∧
        (∀ h ∈ r.holds, h.kind ≠ .bin → h ∈ r'.holds) ∧
        (r.hasHold .yield = false → (r'.hasHold .yield = true ↔ low)) ∧
        (r.hasHold .bin = false → (r'.hasHold .bin = true ↔ rec_.minSample ≤ a.bins.sum ∧ 0 < a.bins.sum ∧
          ∃ l ∈ rec_.binLimits, l.bin ∉ r.suppressBins ∧ l.permille * a.bins.sum < a.bin l.bin * 1000)) ∧
        (r.hasHold .sites = false → (r'.hasHold .sites = true ↔ x.td.enabledCount < c.cfg.minSites)) ∧
        (r.holds = [] → r'.holds ≠ [] → x.td.latch = true) ∧
        (∀ l, l ≠ r.lot → x.lot? l = b.lot? l) ∧
        x = { b with lots := x.lots, td := x.td, op := x.op }) ∧
    (let cross := if rec_.minSample ≤ a.bins.sum ∧ 0 < a.bins.sum then rec_.binLimits.filter (fun l =>
       !r.suppressBins.contains l.bin && decide (l.permille * a.bins.sum < a.bin l.bin * 1000)) else []
     let named := fun (bins : List Nat) => cross.foldl (fun y l => if y.contains l.bin then y else y ++ [l.bin]) bins
     let scope := fun (wide : Bool) => if wide then Scope.family else .lot
     ∃ r', x.lot? r.lot = some r' ∧
       (low → r.hasHold .yield = false → ⟨.yield, r.insertionNo, c.now, scope rec_.familyYield,
         some ((good : Int), (a.bins.sum : Int)), []⟩ ∈ r'.holds) ∧
       (∀ l ls, cross = l :: ls → r.hasHold .bin = false → ⟨.bin, r.insertionNo, c.now, scope rec_.familyBin,
         some ((l.bin : Int), (a.bin l.bin : Int)), named []⟩ ∈ r'.holds) ∧
       (∀ h, r.hold? .bin = some h → { h with bins := named h.bins } ∈ r'.holds ∧
         (rec_.familyYield = false → rec_.binLimits.length ≤ 4 → b.op.notices = [] →
           ∀ l ∈ cross, l.bin ∉ h.bins → Notice.holdBinAdded r.lot l.bin (a.bin l.bin) ∈ x.op.notices)) ∧
       (r.hasHold .sites = false → x.td.enabledCount < c.cfg.minSites → ⟨.sites, r.insertionNo, c.now, .lot,
         some ((x.td.enabledCount : Int), (c.cfg.minSites : Int)), []⟩ ∈ r'.holds)) ∧
    (rec_.familyYield = true → low → r.hasHold .yield = false → r.familyScope = false →
      b.family.entry? r.family r.lot = none → b.family.entries.length < 16 →
      ⟨r.family, r.lot, c.own, true, .confirmed, c.now, true⟩ ∈ x.family.entries) ∧
    (∀ l ∈ rec_.binLimits, rec_.familyBin = true → r.hasHold .bin = false → r.familyScope = false →
      b.family.entry? r.family r.lot = none → b.family.entries.length < 16 → rec_.minSample ≤ a.bins.sum → 0 < a.bins.sum →
      l.bin ∉ r.suppressBins → l.permille * a.bins.sum < a.bin l.bin * 1000 →
      ⟨r.family, r.lot, c.own, true, .confirmed, c.now, true⟩ ∈ x.family.entries) ∧
    (let on := allSites.filter (fun n => b.td.site n == .enabled &&
       !(rec_.runLimit != 0 && decide (rec_.runLimit ≤ siteCount a.failRun n)))
     let tested := siteCount a.siteTested
     let others := fun (f : Nat → Nat) (n : Nat) => ((on.filter (· != n)).map f).sum
     let yield := fun n => 1000 * siteCount a.siteGood n / tested n
     let rest := fun n => 1000 * others (siteCount a.siteGood) n / others tested n
     let candidate := fun n => n ∈ on ∧ rec_.siteMinSample ≤ tested n ∧ rec_.siteMinSample ≤ others tested n ∧
       0 < tested n ∧ 0 < others tested n ∧ yield n + rec_.spreadLimit < rest n
     b.td.sites.length = 8 →
       (∀ n, rec_.spreadLimit ≠ 0 → candidate n → (∀ m, candidate m → rest m - yield m < rest n - yield n ∨
           (rest m - yield m = rest n - yield n ∧ n ≤ m)) →
         x.td.site n = .held .spread ∧ ∀ m ∈ on, m ≠ n → x.td.site m = .enabled) ∧
       (rec_.spreadLimit = 0 ∨ (∀ n, ¬candidate n) → ∀ m ∈ on, x.td.site m = .enabled)) ∧
    (∀ n, 1 ≤ n → n ≤ 8 → b.td.sites.length = 8 → b.td.site n = .enabled → rec_.runLimit ≠ 0 →
      rec_.runLimit ≤ siteCount a.failRun n → x.td.site n = .held .run) ∧
    (rec_.runLimit = 0 → rec_.spreadLimit = 0 → x.td.sites = b.td.sites) ∧
    (∀ n, b.td.site n ≠ .enabled → x.td.site n = b.td.site n)

/-- SORTED and LOT_EMPTY (R113, R125, R130 to R132): SORTED ends the touchdown, acts on the LOT_EMPTY it was marked with, and then
queues STOPPED when the stop mark is set; LOT_EMPTY without a lot in test is ignored, with a COUNTED touchdown in flight too (R113
before R130: the model's reading, log 33); else with a counted touchdown in flight it is marked; acted on, it opens the void pass
while voids wait, and otherwise, or at the end of the void pass, reconciles: an insertion whose count is right is closed, and an
empty lot removed; one that is short, or whose excess flag is set, takes a RECON hold (R131). -/
def Obligations.SortedAndLotEmpty : Prop :=
  ∀ s : State, s.takesPort .handler = true → (s.blocks.lots.map (·.lot)).Nodup →
    let b := s.blocks
    let took := fun (c : Instr) (x : Blocks) => exec c s = .next (s.settled x)
    (∀ t, b.td.touchdown = some t → t.stage = .sorting → t.lotEmptyMark = false →
      (b.td.stopMark = false → took .sorted { b with td := { b.td with touchdown := none } }) ∧
      (b.td.stopMark = true → took .sorted (({ b with td := { b.td with
        touchdown := none, stopMark := false } } : Blocks).note .stopped))) ∧
    (∀ t, b.td.touchdown = some t → t.stage = .sorting → t.lotEmptyMark = true →
      let ended := { b with td := { b.td with touchdown := none } }
      let y := ended.lotEmptyTaken s.ctx
      exec .lotEmpty { s with blocks := ended } = .next (s.settled y) ∧
      (b.td.stopMark = false → took .sorted y) ∧
      (b.td.stopMark = true → took .sorted (({ y with td := { y.td with stopMark := false } } : Blocks).note .stopped))) ∧
    ((∀ t, b.td.touchdown = some t → t.stage ≠ .sorting) → took .sorted b) ∧
    (b.testLot? = none → took .lotEmpty b) ∧
    ∀ r a, b.testLot? = some r → r.account = some a →
      let free := ∀ t, b.td.touchdown = some t → t.kind ≠ .counted
      let recon := r.holds ++ [⟨.recon, r.insertionNo, s.clock, .lot, some ((a.placedMain : Int), (a.declared : Int) + a.adj), []⟩]
      let passed := { a with voidPass := .ended, voidFinal := a.voidFinal + a.voidOpen, voidOpen := 0 }
      (r.state = .closing → a.voidPass ≠ .running → took .lotEmpty b) ∧
      (∀ t, r.state = .inTest ∨ (r.state = .closing ∧ a.voidPass = .running) → b.td.touchdown = some t → t.kind = .counted →
        took .lotEmpty { b with td := { b.td with touchdown := some { t with lotEmptyMark := true } } }) ∧
      (r.state = .inTest → free → 0 < a.voidOpen →
        ∃ x : Blocks, took .lotEmpty (x.note (.voidReload r.lot a.voidOpen)) ∧ x = { b with lots := x.lots } ∧
          b.rewrote x r.lot { r with state := .closing, account := some { a with phase := .voidPass, voidPass := .running } }) ∧
      ((r.state = .inTest ∧ a.voidOpen = 0) ∨ (r.state = .closing ∧ a.voidPass = .running) → free →
        (a.placedMain : Int) = (a.declared : Int) + a.adj → a.excess = false → r.hasHold .recon = false →
        let good := a.good (s.ctx.recipe r.product).goodBins
        let m := Summary.mk r.insertionNo s.straps.toNat a.declared a.adj good (a.bins.sum - good) (a.voidFinal + a.voidOpen)
          a.scrapped
        let ended := { b.ports with toHandler := b.ports.toHandler ++ [.lotEnd] }
        (0 < good → ∃ x : Blocks, took .lotEmpty (x.note (.insertionClosed r.lot r.insertionNo m)) ∧
          b.rewrote x r.lot { r with
            summaries := r.summaries ++ [m], account := none
            nextInsertion := if r.route.length ≤ r.insertionNo then none else some (r.insertionNo + 1)
            state := if r.route.length ≤ r.insertionNo then .finished else .awaiting } ∧
          x = { b with lots := x.lots, ports := ended }) ∧
        (good = 0 → b.family.entry? r.family r.lot = none → ∃ x : Blocks, took .lotEmpty x ∧ x.lot? r.lot = none ∧
          (b.op.notices.length < 15 →
            Notice.insertionClosed r.lot r.insertionNo m ∈ x.op.notices ∧ Notice.emptyLot r.lot ∈ x.op.notices) ∧
          x = { b with lots := x.lots, custody := x.custody, link := x.link, op := x.op, ports := ended })) ∧
      (free → (a.placedMain : Int) < (a.declared : Int) + a.adj ∨ a.excess = true → r.ending = false → r.hasHold .recon = false →
        (r.state = .inTest → a.voidOpen = 0 → ∃ x : Blocks, took .lotEmpty x ∧
          x = { b with lots := x.lots, td := { b.td with latch := true }, op := x.op } ∧
          b.rewrote x r.lot { r with state := .closing, holds := recon }) ∧
        (r.state = .closing → a.voidPass = .running → ∃ x : Blocks, took .lotEmpty x ∧
          x = { b with lots := x.lots, td := { b.td with latch := true }, op := x.op } ∧
          b.rewrote x r.lot { r with account := some passed, holds := recon })) ∧
      (free → r.hasHold .recon = true →
        (r.state = .inTest → a.voidOpen = 0 → ∃ x : Blocks, took .lotEmpty x ∧ x = { b with lots := x.lots } ∧
          b.rewrote x r.lot { r with state := .closing }) ∧
        (r.state = .closing → a.voidPass = .running → ∃ x : Blocks, took .lotEmpty x ∧ x = { b with lots := x.lots } ∧
          b.rewrote x r.lot { r with account := some passed }))

/-! ## What follows a change, and the invariants -/

/-- What the placing of frames, the choice of the next lot, the offers and the releases that follow a change can touch (R8,
R29, R43, R70, R172): the lots stay the same lots; no answer, objection, family entry, released lot, site, error counter, link
state, signal, reply or line of the operator changes; a remote disposition stays or, its DISPOSE displaced, ends (R27, R154); the
placement count and the notices only grow, and those that overflow are counted; with a lot in the cell nothing of the cell
changes but the engine's mark that the chain end is to be made again (R103). -/
def Obligations.WhatFollowsAChange : Prop :=
  ∀ (c : Ctx) (b : Blocks),
    let x := b.settle c
    List.Forall₂ LotRecord.SameLot b.lots x.lots ∧
    ((b.lots.map (·.lot)).Nodup → List.Forall₂ (fun r r' => LotState.settlesTo r.state r'.state) b.lots x.lots) ∧
    ((b.lots.map (·.lot)).Nodup → b.cellLot?.isSome = true → x.td = b.td ∧ x.ports = b.ports ∧
      x.setup = (if b.setup.waitsAtEnd = true ∧ b.programActive = false then
        { b.setup with walk := b.setup.walk.map (fun w => { w with endAgain := true }) } else b.setup) ∧
      List.Forall₂ (fun r r' => r'.account = r.account ∧ r'.holds = r.holds) b.lots x.lots) ∧
    x.custody = b.custody ∧ x.release.objections = b.release.objections ∧
    x.release.ring.map (fun e => (e.lot, e.family, e.good, e.time, e.due)) =
      b.release.ring.map (fun e => (e.lot, e.family, e.good, e.time, e.due)) ∧
    x.family = { b.family with rollcallRetry := x.family.rollcallRetry, cursor := x.family.cursor } ∧
    (x.remote = b.remote ∨ x.remote = none) ∧
    x.td.sites = b.td.sites ∧ x.td.stopMark = b.td.stopMark ∧ x.td.timerRing = b.td.timerRing ∧
    x.setup.kitTaken = b.setup.kitTaken ∧ x.setup.kitSince = b.setup.kitSince ∧
    x.link.txErr = b.link.txErr ∧ x.link.rxErr = b.link.rxErr ∧ x.link.state = b.link.state ∧
    x.link.joined = b.link.joined ∧ x.link.rejoinAcc = b.link.rejoinAcc ∧ x.link.clash = b.link.clash ∧
    x.link.signals = b.link.signals ∧ b.link.placements ≤ x.link.placements ∧
    x.link.slots.length = b.link.slots.length ∧
    x.op.sending = b.op.sending ∧ x.op.replies = b.op.replies ∧ x.op.waiting = b.op.waiting ∧
    x.op.busyBehind = b.op.busyBehind ∧ x.op.restarting = b.op.restarting ∧ x.op.beforeReset = b.op.beforeReset ∧
    x.op.gathered = b.op.gathered ∧ x.op.tooLong = b.op.tooLong ∧ x.op.discarding = b.op.discarding ∧ x.op.sent = b.op.sent ∧
    b.op.notices <+: x.op.notices ∧ (b.op.overflowMark = true → x.op.overflowMark = true) ∧
    min 255 b.op.overflowCount ≤ x.op.overflowCount

/-- Starting, offering and releasing after a change. Nothing that could start, be offered or be released is left (R8, R43, R172).
With no lot in the cell the first unheld lot of the queue, by class, arrival and lot id, enters SETUP with a fresh account, and
its walk begins at the chain head, at once unless an operator command is in flight (R7, R8, R9, R96). Of several offerable lots,
with one slot EMPTY, the first by class and lot id is OFFERED with its OFFER in that slot and its window running, and the others,
refused, wait for the re-offer interval (R43, R44, R45, R28); where a second slot is EMPTY an eligible station bids on its own
OFFER (R48, R56, R57). Of several releasable lots the one of lowest id is RELEASING with its INTENT in the slot and its window
running, and the others wait 1 s (R172, R173). `nothingDue`, `noStart`, `noOffer` and `noRelease` say that no other sweep has
work; the order of the sweeps is log 9's choice, the placement number log 27's. -/
def Obligations.SweepsStartOfferAndRelease : Prop :=
  ∀ (c : Ctx) (b : Blocks), (b.lots.map (·.lot)).Pairwise (· < ·) →
    let x := b.settle c
    let nothingDue := (∀ o, b.nextDue c o = none) ∧ (∀ l ∈ b.custody.sendList.head?, ∀ r, b.lot? l = some r →
      r.dossierSend ≠ some .waiting) ∧ b.link.requests = [] ∧ b.setup.waitsAtEnd = false
    let noStart := b.cellLot?.isSome = true ∨ ∀ r ∈ b.lots, r.state = .queued → r.held = true
    let noOffer := ∀ r ∈ b.lots, b.offerable r = false
    let noRelease := ∀ r ∈ b.lots, b.releasable c r = false
    let oneEmpty := fun (i : Nat) => b.link.slots[i]? = some none ∧ ∀ j y, j ≠ i → b.link.slots[j]? = some y → y ≠ none
    -- nothing is left
    (∀ r ∈ x.lots, x.offerable r = false ∧ x.releasable c r = false) ∧
    (x.cellLot? = none → ∀ r ∈ x.lots, r.state = .queued → r.held = true) ∧
    -- the start of the next lot
    (∀ r, nothingDue → noOffer → noRelease → b.cellLot? = none → r ∈ b.lots → r.state = .queued → r.held = false →
      (∀ q ∈ b.lots, q.state = .queued → q.held = false → q.lot = r.lot ∨ r.priority < q.priority ∨ (r.priority = q.priority ∧
        (r.arrival.getD 0 < q.arrival.getD 0 ∨ (r.arrival.getD 0 = q.arrival.getD 0 ∧ r.lot < q.lot)))) →
      let head := (c.insertion r.product r.insertionNo).chainHead
      let begun := { b with
        lots := b.lots.map (fun (y : LotRecord) => if y.lot == r.lot then { y with
          state := .setup, account := some (Account.fresh (if r.nextInsertion = some 1 then r.entryQty else r.lastGood))
          suppressYield := false, suppressBins := [], awardDue := false } else y)
        setup := { b.setup with
          engine := .running, walk := some ⟨r.lot, head, false, 0, false, none, false, false, none, none, false⟩ } }
      (b.setup.inFlight = none → x = begun.walkFrom c head) ∧ (b.setup.inFlight.isSome = true → x = begun)) ∧
    -- the offers
    (let first := fun (r : LotRecord) => r ∈ b.lots ∧ b.offerable r = true ∧ ∀ q ∈ b.lots, b.offerable q = true →
        r.priority < q.priority ∨ (r.priority = q.priority ∧ r.lot ≤ q.lot)
     let waits := fun (q : LotRecord) => x.lot? q.lot = some { q with
        offer := none, deadline := some ⟨.reoffer, c.now + c.cfg.reofferInterval * 1000⟩ }
     let offered := fun (r : LotRecord) (own : Option (SendState × Nat)) => { r with
        state := .offered, deadline := some ⟨.bidWindow, c.now + c.cfg.bidWindow * 1000⟩, offer := some ⟨.pending, own, none⟩ }
     let offer := fun (r : LotRecord) => OfferFields.mk r.lot r.product r.family (r.nextInsertion.getD 0) r.priority
        (if r.nextInsertion = some 1 then r.entryQty else r.lastGood) (c.recipe r.product).packageClass
        ((r.nextStep?.map (fun s => bandCode s.band)).getD 0) ((r.nextStep?.map (·.program)).getD 0)
     nothingDue → noStart → noRelease → (∀ r ∈ b.lots, b.offerable r = true → (∀ q ∈ b.bids, q.lot ≠ r.lot) ∧
         ∀ y ∈ b.link.slots, ∀ f ∈ y, f.frame.isBid r.lot = false) →
       ((∀ y ∈ b.link.slots, y ≠ none) → ∀ q ∈ b.lots, b.offerable q = true → waits q) ∧
       (∀ r i, first r → oneEmpty i →
         x.lot? r.lot = some (offered r none) ∧ x.link = (b.placed c.own i ⟨.dispatch, r.lot, .offer (offer r)⟩).link ∧
         x.bids = b.bids ∧ (∀ q ∈ b.lots, b.offerable q = true → q.lot ≠ r.lot → waits q) ∧
         ∀ q ∈ b.lots, b.offerable q = false → x.lot? q.lot = some q) ∧
       (∀ r i j, first r → (∀ q ∈ b.lots, b.offerable q = true → q.lot = r.lot) → b.link.freeAt i →
         (b.placed c.own i ⟨.dispatch, r.lot, .offer (offer r)⟩).link.freeAt j →
         let o := offer r
         let y := b.placed c.own i ⟨.dispatch, r.lot, .offer o⟩
         let mine := fun (rec_ : Recipe) (ins : RecipeInsertion) =>
           c.cfg.recipes.find? (fun y => y.product == r.product) = some rec_ ∧ rec_.route[o.insertion - 1]? = some ins ∧
           1 ≤ o.insertion ∧ bandCode ins.band = o.band ∧ ins.program = o.program ∧ ins.band ∈ c.cfg.bands
         let open_ := c.passesFilter o = true ∧ 1 ≤ o.units ∧ 1 ≤ b.td.enabledCount ∧ b.commitments < 8 ∧
           b.lots.length + b.bids.length < 16 ∧ b.bids.length < 4 ∧ b.family.listed r.family = false
         let lots := fun (own : Option (SendState × Nat)) => b.lots.map (fun q => if q.lot == r.lot then offered q own else q)
         (¬open_ ∨ (∀ rec_ ins, ¬mine rec_ ins) → x = { y with lots := lots none }) ∧
         ∀ rec_ ins, mine rec_ ins → open_ →
           (changeover c b.setup (b.projected c) ins o.packageClass 16 ins.chainHead 0 = none → x = { y with lots := lots none }) ∧
           ∀ n, changeover c b.setup (b.projected c) ins o.packageClass 16 ins.chainHead 0 = some n →
             let cost := min 65535 (b.backlog c + n)
             x = { y.placed c.own j ⟨.dispatch, r.lot, .bid r.lot c.own cost⟩ with
               lots := lots (some (.pending, cost)), bids := b.bids ++ [⟨r.lot, c.own, r.family, cost, c.now, none⟩] })) ∧
    -- the releases
    (nothingDue → noStart → noOffer →
      let waits := fun (q : LotRecord) => { q with releaseRetry := some (c.now + 1000) }
      ((∀ y ∈ b.link.slots, y ≠ none) →
        x = { b with lots := b.lots.map (fun q => if b.releasable c q then waits q else q) }) ∧
      ∀ r i, r ∈ b.lots → b.releasable c r = true → (∀ q ∈ b.lots, b.releasable c q = true → r.lot ≤ q.lot) →
        oneEmpty i ∨ (b.link.freeAt i ∧ ∀ q ∈ b.lots, b.releasable c q = true → q.lot = r.lot) →
        x = { b.placed c.own i ⟨.release, r.lot, .intent r.lot r.family⟩ with
          lots := b.lots.map (fun (q : LotRecord) => if q.lot == r.lot then { q with
            state := .releasing, releaseRetry := none, intent := some .pending
            deadline := some ⟨.releaseWindow, c.now + c.cfg.releaseWindow * 1000⟩ }
            else if b.releasable c q then waits q else q) })

/-- Placing the class 0 and 1 frames that are due (R24, R27, R29, R70). What an owner has due: the custody unit its oldest answer
not in a slot, else the next segment of the dossier it sends (R68, R70); the dispatch unit the AWARD of the lowest lot id (log 21);
the family hold list its HOLDs in entry order, then its CLEARs (R159), and once none is due any more (log 21) the answer its
roll-call cursor stands at, one at a time: none while one is placed, or while it waits for the outcome of an answer of an earlier
walk (R166); the release unit its oldest objection (R175). The cursor leaves an entry that is removed for the next local one that
is neither due nor in a slot, and keeps its place while its answer is on the line (log 35). A due frame
takes the lowest EMPTY slot; with none it takes that of the PENDING class 2 or 3 frame of highest identifier, then placement
number, whose owner is told; with none such it makes a slot request behind those of its class. A slot that comes free is granted to
the first request whose owner has a frame due. The first record of the send list that waits begins its dossier. When all is placed,
every owner with a frame due stands in the request list, and none stands there while a slot is EMPTY. Of a further frame due beside
a standing request log 73 speaks, of the placement number log 27. -/
def Obligations.DueFramesTakeTheirSlots : Prop :=
  ∀ (c : Ctx) (b : Blocks),
    let x := b.settle c
    let l := b.link
    let unslotted := fun (p : Frame → Bool) => ∀ y ∈ l.slots, ∀ f ∈ y, p f.frame = false
    let oldest := fun {α : Type} (q : List α) (p : α → Prop) (a : α) => ∃ pre post, q = pre ++ a :: post ∧ p a ∧ ∀ y ∈ pre, ¬p y
    let full := ∀ y ∈ l.slots, y ≠ none
    let low := fun (e : SlotEntry) => e.onWire = false ∧ 2 ≤ frameClass e.frame.data
    let idle := b.setup.waitsAtEnd = false ∧ (b.cellLot?.isSome = true ∨ ∀ r ∈ b.lots, r.state = .queued → r.held = true) ∧
      (∀ r ∈ b.lots, b.offerable r = false) ∧ ∀ r ∈ b.lots, b.releasable c r = false
    let noneWaits := ∀ n ∈ b.custody.sendList.head?, ∀ r, b.lot? n = some r → r.dossierSend ≠ some .waiting
    -- what is due
    (∀ a : Answer, oldest b.custody.answers (fun a => unslotted (Frame.isAnswer a.lot a.kind)) a →
      b.nextDue c .custody = some ⟨.custody, a.lot, match a.kind with
        | .accept => .accept a.lot a.station
        | .take => .take a.lot a.station
        | .decline => .decline a.lot a.station
        | .recall => .recall a.lot a.station
        | .object => .object a.lot 1 a.station⟩) ∧
    (∀ (r : LotRecord) (k : Nat), (∀ a ∈ b.custody.answers, ¬unslotted (Frame.isAnswer a.lot a.kind)) →
      b.custody.sendList.head? = some r.lot → b.lot? r.lot = some r → r.dossierSend = some (.sending k) →
      unslotted (Frame.isDossier r.lot) → b.nextDue c .custody = some ⟨.custody, r.lot, .dossier (r.segment k)⟩) ∧
    (∀ r : LotRecord, oldest b.lots (fun r => r.awardDue = true ∧ unslotted (Frame.isAward r.lot)) r →
      b.nextDue c .dispatch = some ⟨.dispatch, r.lot, .award r.lot (r.peer.getD c.own)⟩) ∧
    (let holds := fun (e : FamilyEntry) => e.isLocal = true ∧ e.holdDue = true ∧ unslotted (Frame.isOfKey e.family e.lot)
     let clears := fun (k : Nat × Nat) => unslotted (Frame.isOfKey k.1 k.2)
     (∀ e, oldest b.family.entries holds e → b.nextDue c .family = some ⟨.family, e.lot, .hold e.family e.lot c.own⟩) ∧
     (∀ k, (∀ e ∈ b.family.entries, ¬holds e) → oldest b.family.clearDue clears k →
       b.nextDue c .family = some ⟨.family, k.2, .clear k.1 k.2 c.own⟩) ∧
     (∀ cu, (∀ e ∈ b.family.entries, e.isLocal = true → e.holdDue = false) → b.family.clearDue = [] →
       b.family.cursor = some cu → cu.placed = false → cu.waitsFor = none → unslotted (Frame.isOfKey cu.family cu.lot) →
       b.nextDue c .family = some ⟨.family, cu.lot, .hold cu.family cu.lot c.own⟩) ∧
     ((∀ e ∈ b.family.entries, ¬holds e) → (∀ k ∈ b.family.clearDue, ¬clears k) →
       (∀ cu, b.family.cursor = some cu → cu.placed = true ∨ cu.waitsFor.isSome = true) → b.nextDue c .family = none)) ∧
    -- the answers of a roll call
    (∀ (cu : Cursor) (f : Frame), b.family.cursor = some cu →
      (∀ st, f.data = .hold cu.family cu.lot st →
        b.notePlaced f = { b with family := { b.family with cursor := some { cu with placed := true } } }) ∧
      ((∀ st, f.data ≠ .hold cu.family cu.lot st) → b.notePlaced f = b)) ∧
    (∀ (cu : Cursor) (pre post : List FamilyEntry) (e : FamilyEntry), b.family.saturated = false → b.family.cursor = some cu →
      b.family.entries = pre ++ e :: post → (∀ y ∈ pre, (y.family, y.lot) ≠ (e.family, e.lot)) →
      let at_ := (b.removeEntry c e.family e.lot).family.cursor
      let stands := cu.gone = none ∧ (cu.family, cu.lot) = (e.family, e.lot)
      let answering := cu.placed = true ∧
        ∃ y ∈ l.slots, ∃ f ∈ y, f.onWire = true ∧ f.frame.isOfKey e.family e.lot = true
      (stands → answering → at_ = some { cu with gone := some pre.length }) ∧
      (stands → ¬answering → at_ = (post.find? (fun y => y.isLocal && !y.holdDue &&
        (cu.waitsFor == some (y.family, y.lot) || !b.inSlot (Frame.isHoldOf y.family y.lot)))).map
          (fun y => ⟨y.family, y.lot, false, cu.waitsFor, none⟩)) ∧
      (cu.gone = none → ¬stands → at_ = some cu) ∧
      ∀ n, cu.gone = some n → at_ = some { cu with
        gone := some ((b.family.entries.take n).filter (fun y => !(y.family == e.family && y.lot == e.lot))).length }) ∧
    (∀ o : Objection, oldest b.release.objections (fun o => unslotted (Frame.isObjection o.lot o.station)) o →
      b.nextDue c .release = some ⟨.release, o.lot, .object o.lot (match o.reason with | .duplicate => 1 | .family => 2) o.station⟩) ∧
    -- one frame due: placed, displacing, or asking for a slot
    (∀ (o : Block) (f : Frame), idle → noneWaits → l.state ≠ .withdrawn → b.nextDue c o = some f →
      (∀ p, p ≠ o → b.nextDue c p = none ∨ ∃ q ∈ l.requests, q.1 = p) →
      (∀ i, l.freeAt i →
        let y := (b.placed c.own i f).notePlaced f
        (∀ p, y.nextDue c p = none) → x = y) ∧
      (∀ i e, l.requests = [] → full → l.slots[i]? = some (some e) → low e →
        (∀ j d, j ≠ i → l.slots[j]? = some (some d) → low d →
          d.identifier < e.identifier ∨ (d.identifier = e.identifier ∧ d.placement < e.placement)) →
        let y := (b.placed c.own i f).notePlaced f
        (∀ p, y.nextDue c p = none) → x = y.toldUnsent c e) ∧
      (full → (∀ y ∈ l.slots, ∀ e ∈ y, ¬low e) → (∀ q ∈ l.requests, q.1 ≠ o) →
        let behind := l.requests.filter (fun q => decide (q.2 ≤ frameClass f.data)) ++ [(o, frameClass f.data)]
        x = { b with link := { l with
          requests := behind ++ l.requests.filter (fun q => decide (frameClass f.data < q.2)) } }) ∧
      -- a slot has come free
      (∀ i cls pre post, l.requests = pre ++ (o, cls) :: post → pre.length ≤ 4 → (∀ q ∈ pre, b.nextDue c q.1 = none) →
        l.slots[i]? = some none → (∀ j y, j ≠ i → l.slots[j]? = some y → y ≠ none) →
        let y := (({ b with link := { l with requests := post } } : Blocks).placed c.own i f).notePlaced f
        (∀ p, y.nextDue c p = none ∨ ∃ q ∈ post, q.1 = p) → x = y)) ∧
    -- what the owner of a displaced frame does
    (∀ (e : SlotEntry) (r : LotRecord), b.lot? e.frame.lot = some r →
      let y := b.toldUnsent c e
      (∀ g, e.frame.data = .offer g → g.lot = r.lot → r.state = .offered → b.rewrote y r.lot { r with
          state := .awaiting, offer := none, deadline := some ⟨.reoffer, c.now + c.cfg.reofferInterval * 1000⟩ } ∧
        y.bids = b.bids.filter (fun q => q.lot != r.lot) ∧ y.link.cancelled (Frame.isBid r.lot)) ∧
      (∀ g, e.frame.data = .intent r.lot g → r.state = .releasing → ∃ z : Blocks,
        y = z.note (.releaseAbandoned r.lot .notSent) ∧ b.rewrote z r.lot { r with
          state := .finished, intent := none, deadline := none, releaseRetry := some (c.now + 1000) })) ∧
    (∀ (e : SlotEntry) (lot st cost : Nat), e.frame.data = .bid lot st cost →
      (b.toldUnsent c e).bids = b.bids.filter (fun q => q.lot != lot) ∧
        (b.toldUnsent c e).link.cancelled (Frame.isBid lot)) ∧
    (∀ e : SlotEntry, e.frame.data = .rollcall → b.family.rollcallDue = true →
      b.toldUnsent c e = { b with family := { b.family with rollcallRetry := some (c.now + 1000) } }) ∧
    (∀ (e : SlotEntry) (lot g good : Nat), e.frame.data = .shipped lot g good → b.toldUnsent c e = { b with
      release := { b.release with ring := b.release.ring.map (fun y => if y.placement = some e.placement then
        { y with retry := some (c.now + 1000), placement := none } else y) } }) ∧
    -- the dossier begins
    (∀ (r : LotRecord) (i : Nat), idle → b.custody.sendList.head? = some r.lot → b.lot? r.lot = some r →
      r.dossierSend = some .waiting → (∀ a ∈ b.custody.answers, ¬unslotted (Frame.isAnswer a.lot a.kind)) →
      unslotted (Frame.isDossier r.lot) → (∀ p, p ≠ .custody → b.nextDue c p = none) → l.state ≠ .withdrawn → l.freeAt i →
      ∃ y : Blocks, x = y.placed c.own i ⟨.custody, r.lot, .dossier (.identity r.lot r.product r.family r.priority r.entryQty
          r.route.length (r.nextInsertion.getD 0) r.disposedHolds (r.summaries.length + 2))⟩ ∧ y = { b with lots := y.lots } ∧
        b.rewrote y r.lot { r with dossierSend := some (.sending 1) }) ∧
    -- when all is placed
    (l.sound → l.slots.length = 6 → l.state ≠ .withdrawn → ∀ o, x.nextDue c o = none ∨ ∃ q ∈ x.link.requests, q.1 = o) ∧
    (l.sound → l.slots.length = 6 → x.link.requests = [] ∨ ∀ y ∈ x.link.slots, y ≠ none)

/-- After power-on the lot table is empty, and every record enters afterwards by ENTER, taken at once or after it waited, or
by a won bid (R17). -/
def Obligations.RecordsEnterByEnterOrWonBid : Prop :=
  (∀ (s : State) (straps : BitVec 6), ∃ t, exec (.powerOn straps) s = .next t ∧ t.blocks.lots = [] ∧ t.blocks.queue = [] ∧
    t.blocks.commitments = 0) ∧
  (∀ (s : State) (memory : Option (List Byte)), s.run = .loading → s.pins.resetHeld = false →
    ∃ t, exec (.imageLoaded memory) s = .next t ∧ t.blocks.lots = [] ∧ t.blocks.queue = [] ∧ t.blocks.commitments = 0) ∧
  ∀ (s t : State) (c : Instr), exec c s = .next t → ∀ r ∈ t.blocks.lots, (∀ r0 ∈ s.blocks.lots, r0.lot ≠ r.lot) →
    (∃ product qty family priority, c = .enter r.lot product qty family priority ∨
      c = .outgoingLineSent ∧ s.blocks.op.waiting = some (.enter r.lot product qty family priority)) ∨
    ∃ src q, c = .awardHeard src r.lot s.straps.toNat ∧ q ∈ s.blocks.bids ∧ q.lot = r.lot ∧ q.offerer = src

/-- Every step keeps the clock in its range (R2), the working copy in the ranges of R188, R189 and R94 once an image is kept,
and a running part on a station number of 1 to 62 (R190, R191). -/
def Obligations.StepKeepsClockAndImageSound : Prop :=
  ∀ s t : State, s.sound → step s = .next t → t.sound

/-- Every step keeps the collections within the places the manual gives them (R24, R56, R128, R156, R159, R175, R178, R187), lot
ids distinct in a table of at most 16 records (R1), lot records and bid records together at most 16 (R6), at most one lot in
SETUP, IN_TEST or CLOSING (R8), the keys of the family hold list distinct (R156), the error counters in range with the link state
they stand for (R34, R35), at most one slot request for each block (R29), and a WITHDRAWN station without frames and slot requests
(R37). `Blocks.tableSound` adds what the induction rests on: deadlines, offer states and accounts stand with the states they
belong to (R4, R42, R9), the walk is that of the lot in SETUP, and a DECLINE is due only in INBOUND. No step takes the commitments
above 8, but one that closes a window on an own best bid whose record is gone: it may take them one above (R6, R61, R64; the
model's choice, log 50). -/
def Obligations.StepKeepsTheLimits : Prop :=
  ∀ s t : State, s.blocks.sound → step s = .next t → t.blocks.sound ∧
    (¬s.closesUnrecorded → t.blocks.commitments ≤ max 8 s.blocks.commitments) ∧
    (s.closesUnrecorded → t.blocks.commitments ≤ max 8 (s.blocks.commitments + 1))

/-- Every step keeps the balance law (R10): in the account of every lot record placed_main equals the sum of bin_count[1..15]
plus void_open, void_final, in_sockets and scrapped, and stays within 65,535 (R9). `Blocks.accountsSound` adds what the induction
rests on: the units of a touchdown not yet sorted stand in in_sockets, the latch is set while the lot in test is held (R116), and
a lot in IN_TEST with an open THERMAL hold has no touchdown in TESTING (R129). -/
def Obligations.StepKeepsTheAccountsBalanced : Prop :=
  ∀ s t : State, s.blocks.sound → s.blocks.accountsSound → step s = .next t → t.blocks.accountsSound

/-- The machine before its first POWER_ON meets the invariants (the state itself is log 4). -/
def Obligations.ResetIsSound : Prop :=
  State.reset.sound ∧ State.reset.blocks.sound ∧ State.reset.blocks.commitmentsKept ∧ State.reset.blocks.accountsSound ∧ State.reset.pending = [] ∧ State.reset.feed = false

/-! ## The wire forms -/

/-- Frames and port messages read back as they were written (R20, R31, R193, R194, 11.1, 11.2): the identifier and the data
bytes of a frame sent by another station are the frame heard, for every kind and every value its fields can carry; the bytes of
a port message are the message; and bytes whose sum is not 0 modulo 256 are discarded. -/
def Obligations.WireFormsRoundTrip : Prop :=
  (∀ (own st : Nat) (f : FrameData), 1 ≤ st → st ≤ 62 → st ≠ own → (heardCommand st f).wellFormed = true →
    receiveFrame own (frameIdentifier st f) (frameBytes f) = heardCommand st f) ∧
  (∀ x : Byte,
    receiveMessage .handler (portMessage 0x11 [x]) = .tdReady x ∧
    receiveMessage .handler (portMessage 0x14 [x]) = .atTemp x.toNat ∧
    receiveMessage .tester (portMessage 0x21 [x]) = .loaded x.toNat ∧
    receiveMessage .tester (portMessage 0x22 [x]) = .loadFailed x.toNat ∧
    receiveMessage .tester (portMessage 0x23 [x]) = .cancelled x.toNat ∧
    receiveMessage .tester (portMessage 0x24 [x]) = .evicted x.toNat ∧
    receiveMessage .tester (portMessage 0x25 [x]) = .selected x.toNat ∧
    ∀ bins : List Byte, bins.length = 8 →
      receiveMessage .tester (portMessage 0x28 (x :: bins)) = .tdResult x.toNat (bins.map BitVec.toNat)) ∧
  receiveMessage .handler (portMessage 0x12 []) = .sorted ∧ receiveMessage .handler (portMessage 0x13 []) = .lotEmpty ∧
  receiveMessage .handler (portMessage 0x15 []) = .tempLost ∧ receiveMessage .tester (portMessage 0x26 []) = .checkPass ∧
  receiveMessage .tester (portMessage 0x27 []) = .checkFail ∧
  ∀ (p : Port) (bytes : List Byte), (bytes.map BitVec.toNat).sum % 256 ≠ 0 → receiveMessage p bytes = .portMessageDiscarded p
end

