-- ==== Sys2Proof/Laws/Account.lean ====
section
/-! SUPPORT. The moves of units within an insertion account: what each does to the balance law (R10), to in_sockets and to
placed_main, and the updates of a touchdown record. -/

namespace Sys2Proof.Machine

@[simp] theorem Touchdown.orphaned_stage (t : Touchdown) : t.orphaned.stage = t.stage := rfl
@[simp] theorem Touchdown.orphaned_kind (t : Touchdown) : t.orphaned.kind = .orphan := rfl
@[simp] theorem Touchdown.orphaned_active (t : Touchdown) : t.orphaned.active = t.active := rfl
@[simp] theorem Touchdown.orphaned_lotEmptyMark (t : Touchdown) : t.orphaned.lotEmptyMark = t.lotEmptyMark := rfl

@[simp] theorem Account.voidToOpen_inSockets (a : Account) (n : Nat) : (a.voidToOpen n).inSockets = a.inSockets - n := rfl
@[simp] theorem Account.voidToFinal_inSockets (a : Account) (n : Nat) : (a.voidToFinal n).inSockets = a.inSockets - n := rfl
@[simp] theorem Account.scrapUnits_inSockets (a : Account) (n : Nat) : (a.scrapUnits n).inSockets = a.inSockets - n := rfl

@[simp] theorem Account.voidUnits_inSockets (a : Account) (n : Nat) : (a.voidUnits n).inSockets = a.inSockets - n := by
  unfold Account.voidUnits; split <;> rfl

/-- A fresh account balances (R9). -/
theorem Account.balanced_fresh (declared : Nat) : (Account.fresh declared).balanced := by
  refine ⟨rfl, ?_, ?_⟩ <;> simp [Account.fresh]

/-- Units voided in the main pass keep the balance (R126, R135). -/
theorem Account.balanced_voidToOpen {a : Account} {n : Nat} (h : a.balanced) (hn : n ≤ a.inSockets) : (a.voidToOpen n).balanced := by
  obtain ⟨h1, h2, h3⟩ := h
  refine ⟨h1, ?_, h3⟩
  simp only [Account.voidToOpen]; omega

/-- Units voided in the void pass keep the balance (R126). -/
theorem Account.balanced_voidToFinal {a : Account} {n : Nat} (h : a.balanced) (hn : n ≤ a.inSockets) : (a.voidToFinal n).balanced := by
  obtain ⟨h1, h2, h3⟩ := h
  refine ⟨h1, ?_, h3⟩
  simp only [Account.voidToFinal]; omega

/-- Units of a scrapped lot keep the balance (R127). -/
theorem Account.balanced_scrapUnits {a : Account} {n : Nat} (h : a.balanced) (hn : n ≤ a.inSockets) : (a.scrapUnits n).balanced := by
  obtain ⟨h1, h2, h3⟩ := h
  refine ⟨h1, ?_, h3⟩
  simp only [Account.scrapUnits]; omega

/-- Voided units keep the balance in either phase (R124, R126). -/
theorem Account.balanced_voidUnits {a : Account} {n : Nat} (h : a.balanced) (hn : n ≤ a.inSockets) : (a.voidUnits n).balanced := by
  unfold Account.voidUnits; split
  · exact Account.balanced_voidToOpen h hn
  · exact Account.balanced_voidToFinal h hn

/-- One bin count raised by one raises the sum of the bins by one. -/
theorem sum_set_succ (l : List Nat) (i : Nat) (h : i < l.length) : (l.set i (l.getD i 0 + 1)).sum = l.sum + 1 := by
  induction l generalizing i with
  | nil => simp at h
  | cons x l ih =>
    cases i with
    | zero => simp; omega
    | succ i =>
      have := ih i (by simpa using h)
      simp only [List.set_cons_succ, List.sum_cons, List.getD_cons_succ, this]; omega

/-- The unit of an active site leaves in_sockets (R124). -/
theorem Account.takeBin_inSockets (good : List Nat) (a : Account) (s bin : Nat) :
    (a.takeBin good s bin).inSockets = a.inSockets - 1 := by
  unfold Account.takeBin; split
  · rfl
  · simp

/-- The result of one active site keeps the balance (R124). -/
theorem Account.balanced_takeBin {good : List Nat} {a : Account} {s bin : Nat} (h : a.balanced) (hn : 1 ≤ a.inSockets) :
    (a.takeBin good s bin).balanced := by
  unfold Account.takeBin; split
  · rename_i hb
    obtain ⟨h1, h2, h3⟩ := h
    have hs := sum_set_succ a.bins (bin - 1) (by omega)
    have hbin : a.bin bin = a.bins.getD (bin - 1) 0 := by
      simp only [Account.bin]; rw [if_neg]; simp; omega
    refine ⟨by simp [h1], ?_, h3⟩
    simp only [hbin, hs]; omega
  · exact Account.balanced_voidUnits h hn

/-- The results of all active sites keep the balance, and take their units out of in_sockets (R124). -/
theorem Account.balanced_takeResult (good bins : List Nat) : ∀ (active : List Nat) (a : Account), a.balanced →
    active.length ≤ a.inSockets → (Account.takeResult good bins active a).balanced ∧
      (Account.takeResult good bins active a).inSockets = a.inSockets - active.length := by
  intro active
  induction active with
  | nil => intro a h _; exact ⟨h, rfl⟩
  | cons s active ih =>
    intro a h hn
    simp only [List.length_cons] at hn
    have h1 := Account.balanced_takeBin (good := good) (s := s) (bin := siteCount bins s) h (by omega)
    have h2 := Account.takeBin_inSockets good a s (siteCount bins s)
    have := ih _ h1 (by omega)
    refine ⟨this.1, ?_⟩
    rw [show Account.takeResult good bins (s :: active) a =
      Account.takeResult good bins active (a.takeBin good s (siteCount bins s)) from rfl, this.2, h2]
    simp only [List.length_cons]; omega

/-- ACCEPT_COUNT changes nothing that the law is about (R149). -/
theorem Account.balanced_acceptCount {a : Account} (h : a.balanced) : a.acceptCount.balanced := h

end Sys2Proof.Machine
end

