-- ==== Sys2Proof/Laws/State.lean ====
section
/-! SUPPORT. One lemma per field per update of the blocks, and what the plain operations over the lot table and the
operator line do, so that no later proof unfolds a record update. -/

namespace Sys2Proof.Machine

variable (b : Blocks)

/-! ## Fields an update leaves alone -/

@[simp] theorem Blocks.modLot_link (id : Nat) (f : LotRecord → LotRecord) : (b.modLot id f).link = b.link := rfl
@[simp] theorem Blocks.modLot_bids (id : Nat) (f : LotRecord → LotRecord) : (b.modLot id f).bids = b.bids := rfl
@[simp] theorem Blocks.modLot_custody (id : Nat) (f : LotRecord → LotRecord) : (b.modLot id f).custody = b.custody := rfl
@[simp] theorem Blocks.modLot_setup (id : Nat) (f : LotRecord → LotRecord) : (b.modLot id f).setup = b.setup := rfl
@[simp] theorem Blocks.modLot_td (id : Nat) (f : LotRecord → LotRecord) : (b.modLot id f).td = b.td := rfl
@[simp] theorem Blocks.modLot_remote (id : Nat) (f : LotRecord → LotRecord) : (b.modLot id f).remote = b.remote := rfl
@[simp] theorem Blocks.modLot_family (id : Nat) (f : LotRecord → LotRecord) : (b.modLot id f).family = b.family := rfl
@[simp] theorem Blocks.modLot_release (id : Nat) (f : LotRecord → LotRecord) : (b.modLot id f).release = b.release := rfl
@[simp] theorem Blocks.modLot_op (id : Nat) (f : LotRecord → LotRecord) : (b.modLot id f).op = b.op := rfl
@[simp] theorem Blocks.modLot_ports (id : Nat) (f : LotRecord → LotRecord) : (b.modLot id f).ports = b.ports := rfl
@[simp] theorem Blocks.addLot_link (r : LotRecord) : (b.addLot r).link = b.link := rfl
@[simp] theorem Blocks.addLot_bids (r : LotRecord) : (b.addLot r).bids = b.bids := rfl
@[simp] theorem Blocks.addLot_custody (r : LotRecord) : (b.addLot r).custody = b.custody := rfl
@[simp] theorem Blocks.addLot_setup (r : LotRecord) : (b.addLot r).setup = b.setup := rfl
@[simp] theorem Blocks.addLot_td (r : LotRecord) : (b.addLot r).td = b.td := rfl
@[simp] theorem Blocks.addLot_remote (r : LotRecord) : (b.addLot r).remote = b.remote := rfl
@[simp] theorem Blocks.addLot_family (r : LotRecord) : (b.addLot r).family = b.family := rfl
@[simp] theorem Blocks.addLot_release (r : LotRecord) : (b.addLot r).release = b.release := rfl
@[simp] theorem Blocks.addLot_op (r : LotRecord) : (b.addLot r).op = b.op := rfl
@[simp] theorem Blocks.addLot_ports (r : LotRecord) : (b.addLot r).ports = b.ports := rfl
@[simp] theorem Blocks.dropLot_link (id : Nat) : (b.dropLot id).link = b.link := rfl
@[simp] theorem Blocks.dropLot_bids (id : Nat) : (b.dropLot id).bids = b.bids := rfl
@[simp] theorem Blocks.dropLot_custody (id : Nat) : (b.dropLot id).custody = b.custody := rfl
@[simp] theorem Blocks.dropLot_setup (id : Nat) : (b.dropLot id).setup = b.setup := rfl
@[simp] theorem Blocks.dropLot_td (id : Nat) : (b.dropLot id).td = b.td := rfl
@[simp] theorem Blocks.dropLot_remote (id : Nat) : (b.dropLot id).remote = b.remote := rfl
@[simp] theorem Blocks.dropLot_family (id : Nat) : (b.dropLot id).family = b.family := rfl
@[simp] theorem Blocks.dropLot_release (id : Nat) : (b.dropLot id).release = b.release := rfl
@[simp] theorem Blocks.dropLot_op (id : Nat) : (b.dropLot id).op = b.op := rfl
@[simp] theorem Blocks.dropLot_ports (id : Nat) : (b.dropLot id).ports = b.ports := rfl
@[simp] theorem Blocks.reply_link (r : Reply) : (b.reply r).link = b.link := rfl
@[simp] theorem Blocks.reply_lots (r : Reply) : (b.reply r).lots = b.lots := rfl
@[simp] theorem Blocks.reply_bids (r : Reply) : (b.reply r).bids = b.bids := rfl
@[simp] theorem Blocks.reply_custody (r : Reply) : (b.reply r).custody = b.custody := rfl
@[simp] theorem Blocks.reply_setup (r : Reply) : (b.reply r).setup = b.setup := rfl
@[simp] theorem Blocks.reply_td (r : Reply) : (b.reply r).td = b.td := rfl
@[simp] theorem Blocks.reply_remote (r : Reply) : (b.reply r).remote = b.remote := rfl
@[simp] theorem Blocks.reply_family (r : Reply) : (b.reply r).family = b.family := rfl
@[simp] theorem Blocks.reply_release (r : Reply) : (b.reply r).release = b.release := rfl
@[simp] theorem Blocks.reply_ports (r : Reply) : (b.reply r).ports = b.ports := rfl
@[simp] theorem Blocks.beginLine_link : (b.beginLine).link = b.link := rfl
@[simp] theorem Blocks.beginLine_lots : (b.beginLine).lots = b.lots := rfl
@[simp] theorem Blocks.beginLine_bids : (b.beginLine).bids = b.bids := rfl
@[simp] theorem Blocks.beginLine_custody : (b.beginLine).custody = b.custody := rfl
@[simp] theorem Blocks.beginLine_setup : (b.beginLine).setup = b.setup := rfl
@[simp] theorem Blocks.beginLine_td : (b.beginLine).td = b.td := rfl
@[simp] theorem Blocks.beginLine_remote : (b.beginLine).remote = b.remote := rfl
@[simp] theorem Blocks.beginLine_family : (b.beginLine).family = b.family := rfl
@[simp] theorem Blocks.beginLine_release : (b.beginLine).release = b.release := rfl
@[simp] theorem Blocks.beginLine_ports : (b.beginLine).ports = b.ports := rfl
@[simp] theorem Blocks.toHandler_link (m : HandlerMsg) : (b.toHandler m).link = b.link := rfl
@[simp] theorem Blocks.toHandler_lots (m : HandlerMsg) : (b.toHandler m).lots = b.lots := rfl
@[simp] theorem Blocks.toHandler_bids (m : HandlerMsg) : (b.toHandler m).bids = b.bids := rfl
@[simp] theorem Blocks.toHandler_custody (m : HandlerMsg) : (b.toHandler m).custody = b.custody := rfl
@[simp] theorem Blocks.toHandler_setup (m : HandlerMsg) : (b.toHandler m).setup = b.setup := rfl
@[simp] theorem Blocks.toHandler_td (m : HandlerMsg) : (b.toHandler m).td = b.td := rfl
@[simp] theorem Blocks.toHandler_remote (m : HandlerMsg) : (b.toHandler m).remote = b.remote := rfl
@[simp] theorem Blocks.toHandler_family (m : HandlerMsg) : (b.toHandler m).family = b.family := rfl
@[simp] theorem Blocks.toHandler_release (m : HandlerMsg) : (b.toHandler m).release = b.release := rfl
@[simp] theorem Blocks.toHandler_op (m : HandlerMsg) : (b.toHandler m).op = b.op := rfl
@[simp] theorem Blocks.toTester_link (m : TesterMsg) : (b.toTester m).link = b.link := rfl
@[simp] theorem Blocks.toTester_lots (m : TesterMsg) : (b.toTester m).lots = b.lots := rfl
@[simp] theorem Blocks.toTester_bids (m : TesterMsg) : (b.toTester m).bids = b.bids := rfl
@[simp] theorem Blocks.toTester_custody (m : TesterMsg) : (b.toTester m).custody = b.custody := rfl
@[simp] theorem Blocks.toTester_setup (m : TesterMsg) : (b.toTester m).setup = b.setup := rfl
@[simp] theorem Blocks.toTester_td (m : TesterMsg) : (b.toTester m).td = b.td := rfl
@[simp] theorem Blocks.toTester_remote (m : TesterMsg) : (b.toTester m).remote = b.remote := rfl
@[simp] theorem Blocks.toTester_family (m : TesterMsg) : (b.toTester m).family = b.family := rfl
@[simp] theorem Blocks.toTester_release (m : TesterMsg) : (b.toTester m).release = b.release := rfl
@[simp] theorem Blocks.toTester_op (m : TesterMsg) : (b.toTester m).op = b.op := rfl
@[simp] theorem Blocks.note_link (n : Notice) : (b.note n).link = b.link := by unfold Blocks.note; split <;> rfl
@[simp] theorem Blocks.note_lots (n : Notice) : (b.note n).lots = b.lots := by unfold Blocks.note; split <;> rfl
@[simp] theorem Blocks.note_bids (n : Notice) : (b.note n).bids = b.bids := by unfold Blocks.note; split <;> rfl
@[simp] theorem Blocks.note_custody (n : Notice) : (b.note n).custody = b.custody := by unfold Blocks.note; split <;> rfl
@[simp] theorem Blocks.note_setup (n : Notice) : (b.note n).setup = b.setup := by unfold Blocks.note; split <;> rfl
@[simp] theorem Blocks.note_td (n : Notice) : (b.note n).td = b.td := by unfold Blocks.note; split <;> rfl
@[simp] theorem Blocks.note_remote (n : Notice) : (b.note n).remote = b.remote := by unfold Blocks.note; split <;> rfl
@[simp] theorem Blocks.note_family (n : Notice) : (b.note n).family = b.family := by unfold Blocks.note; split <;> rfl
@[simp] theorem Blocks.note_release (n : Notice) : (b.note n).release = b.release := by unfold Blocks.note; split <;> rfl
@[simp] theorem Blocks.note_ports (n : Notice) : (b.note n).ports = b.ports := by unfold Blocks.note; split <;> rfl
@[simp] theorem Blocks.modSetup_link (f : SetupUnit → SetupUnit) : (b.modSetup f).link = b.link := rfl
@[simp] theorem Blocks.modSetup_lots (f : SetupUnit → SetupUnit) : (b.modSetup f).lots = b.lots := rfl
@[simp] theorem Blocks.modSetup_bids (f : SetupUnit → SetupUnit) : (b.modSetup f).bids = b.bids := rfl
@[simp] theorem Blocks.modSetup_custody (f : SetupUnit → SetupUnit) : (b.modSetup f).custody = b.custody := rfl
@[simp] theorem Blocks.modSetup_td (f : SetupUnit → SetupUnit) : (b.modSetup f).td = b.td := rfl
@[simp] theorem Blocks.modSetup_remote (f : SetupUnit → SetupUnit) : (b.modSetup f).remote = b.remote := rfl
@[simp] theorem Blocks.modSetup_family (f : SetupUnit → SetupUnit) : (b.modSetup f).family = b.family := rfl
@[simp] theorem Blocks.modSetup_release (f : SetupUnit → SetupUnit) : (b.modSetup f).release = b.release := rfl
@[simp] theorem Blocks.modSetup_op (f : SetupUnit → SetupUnit) : (b.modSetup f).op = b.op := rfl
@[simp] theorem Blocks.modSetup_ports (f : SetupUnit → SetupUnit) : (b.modSetup f).ports = b.ports := rfl
@[simp] theorem Blocks.modTd_link (f : TdUnit → TdUnit) : (b.modTd f).link = b.link := rfl
@[simp] theorem Blocks.modTd_lots (f : TdUnit → TdUnit) : (b.modTd f).lots = b.lots := rfl
@[simp] theorem Blocks.modTd_bids (f : TdUnit → TdUnit) : (b.modTd f).bids = b.bids := rfl
@[simp] theorem Blocks.modTd_custody (f : TdUnit → TdUnit) : (b.modTd f).custody = b.custody := rfl
@[simp] theorem Blocks.modTd_setup (f : TdUnit → TdUnit) : (b.modTd f).setup = b.setup := rfl
@[simp] theorem Blocks.modTd_remote (f : TdUnit → TdUnit) : (b.modTd f).remote = b.remote := rfl
@[simp] theorem Blocks.modTd_family (f : TdUnit → TdUnit) : (b.modTd f).family = b.family := rfl
@[simp] theorem Blocks.modTd_release (f : TdUnit → TdUnit) : (b.modTd f).release = b.release := rfl
@[simp] theorem Blocks.modTd_op (f : TdUnit → TdUnit) : (b.modTd f).op = b.op := rfl
@[simp] theorem Blocks.modTd_ports (f : TdUnit → TdUnit) : (b.modTd f).ports = b.ports := rfl
@[simp] theorem Blocks.modLink_lots (f : LinkCtl → LinkCtl) : (b.modLink f).lots = b.lots := rfl
@[simp] theorem Blocks.modLink_bids (f : LinkCtl → LinkCtl) : (b.modLink f).bids = b.bids := rfl
@[simp] theorem Blocks.modLink_custody (f : LinkCtl → LinkCtl) : (b.modLink f).custody = b.custody := rfl
@[simp] theorem Blocks.modLink_setup (f : LinkCtl → LinkCtl) : (b.modLink f).setup = b.setup := rfl
@[simp] theorem Blocks.modLink_td (f : LinkCtl → LinkCtl) : (b.modLink f).td = b.td := rfl
@[simp] theorem Blocks.modLink_remote (f : LinkCtl → LinkCtl) : (b.modLink f).remote = b.remote := rfl
@[simp] theorem Blocks.modLink_family (f : LinkCtl → LinkCtl) : (b.modLink f).family = b.family := rfl
@[simp] theorem Blocks.modLink_release (f : LinkCtl → LinkCtl) : (b.modLink f).release = b.release := rfl
@[simp] theorem Blocks.modLink_op (f : LinkCtl → LinkCtl) : (b.modLink f).op = b.op := rfl
@[simp] theorem Blocks.modLink_ports (f : LinkCtl → LinkCtl) : (b.modLink f).ports = b.ports := rfl
@[simp] theorem Blocks.modFamily_link (f : FamilyUnit → FamilyUnit) : (b.modFamily f).link = b.link := rfl
@[simp] theorem Blocks.modFamily_lots (f : FamilyUnit → FamilyUnit) : (b.modFamily f).lots = b.lots := rfl
@[simp] theorem Blocks.modFamily_bids (f : FamilyUnit → FamilyUnit) : (b.modFamily f).bids = b.bids := rfl
@[simp] theorem Blocks.modFamily_custody (f : FamilyUnit → FamilyUnit) : (b.modFamily f).custody = b.custody := rfl
@[simp] theorem Blocks.modFamily_setup (f : FamilyUnit → FamilyUnit) : (b.modFamily f).setup = b.setup := rfl
@[simp] theorem Blocks.modFamily_td (f : FamilyUnit → FamilyUnit) : (b.modFamily f).td = b.td := rfl
@[simp] theorem Blocks.modFamily_remote (f : FamilyUnit → FamilyUnit) : (b.modFamily f).remote = b.remote := rfl
@[simp] theorem Blocks.modFamily_release (f : FamilyUnit → FamilyUnit) : (b.modFamily f).release = b.release := rfl
@[simp] theorem Blocks.modFamily_op (f : FamilyUnit → FamilyUnit) : (b.modFamily f).op = b.op := rfl
@[simp] theorem Blocks.modFamily_ports (f : FamilyUnit → FamilyUnit) : (b.modFamily f).ports = b.ports := rfl
@[simp] theorem Blocks.setLatch_link : (b.setLatch).link = b.link := rfl
@[simp] theorem Blocks.setLatch_lots : (b.setLatch).lots = b.lots := rfl
@[simp] theorem Blocks.setLatch_bids : (b.setLatch).bids = b.bids := rfl
@[simp] theorem Blocks.setLatch_custody : (b.setLatch).custody = b.custody := rfl
@[simp] theorem Blocks.setLatch_setup : (b.setLatch).setup = b.setup := rfl
@[simp] theorem Blocks.setLatch_remote : (b.setLatch).remote = b.remote := rfl
@[simp] theorem Blocks.setLatch_family : (b.setLatch).family = b.family := rfl
@[simp] theorem Blocks.setLatch_release : (b.setLatch).release = b.release := rfl
@[simp] theorem Blocks.setLatch_op : (b.setLatch).op = b.op := rfl
@[simp] theorem Blocks.setLatch_ports : (b.setLatch).ports = b.ports := rfl
@[simp] theorem Blocks.cancelFrames_lots (p : Frame → Bool) : (b.cancelFrames p).lots = b.lots := rfl
@[simp] theorem Blocks.cancelFrames_bids (p : Frame → Bool) : (b.cancelFrames p).bids = b.bids := rfl
@[simp] theorem Blocks.cancelFrames_custody (p : Frame → Bool) : (b.cancelFrames p).custody = b.custody := rfl
@[simp] theorem Blocks.cancelFrames_setup (p : Frame → Bool) : (b.cancelFrames p).setup = b.setup := rfl
@[simp] theorem Blocks.cancelFrames_td (p : Frame → Bool) : (b.cancelFrames p).td = b.td := rfl
@[simp] theorem Blocks.cancelFrames_remote (p : Frame → Bool) : (b.cancelFrames p).remote = b.remote := rfl
@[simp] theorem Blocks.cancelFrames_family (p : Frame → Bool) : (b.cancelFrames p).family = b.family := rfl
@[simp] theorem Blocks.cancelFrames_release (p : Frame → Bool) : (b.cancelFrames p).release = b.release := rfl
@[simp] theorem Blocks.cancelFrames_op (p : Frame → Bool) : (b.cancelFrames p).op = b.op := rfl
@[simp] theorem Blocks.cancelFrames_ports (p : Frame → Bool) : (b.cancelFrames p).ports = b.ports := rfl
@[simp] theorem Blocks.fillSlot_lots (c : Ctx) (i : Nat) (f : Frame) : (Blocks.fillSlot c b i f).lots = b.lots := rfl
@[simp] theorem Blocks.fillSlot_bids (c : Ctx) (i : Nat) (f : Frame) : (Blocks.fillSlot c b i f).bids = b.bids := rfl
@[simp] theorem Blocks.fillSlot_custody (c : Ctx) (i : Nat) (f : Frame) : (Blocks.fillSlot c b i f).custody = b.custody := rfl
@[simp] theorem Blocks.fillSlot_setup (c : Ctx) (i : Nat) (f : Frame) : (Blocks.fillSlot c b i f).setup = b.setup := rfl
@[simp] theorem Blocks.fillSlot_td (c : Ctx) (i : Nat) (f : Frame) : (Blocks.fillSlot c b i f).td = b.td := rfl
@[simp] theorem Blocks.fillSlot_remote (c : Ctx) (i : Nat) (f : Frame) : (Blocks.fillSlot c b i f).remote = b.remote := rfl
@[simp] theorem Blocks.fillSlot_family (c : Ctx) (i : Nat) (f : Frame) : (Blocks.fillSlot c b i f).family = b.family := rfl
@[simp] theorem Blocks.fillSlot_release (c : Ctx) (i : Nat) (f : Frame) : (Blocks.fillSlot c b i f).release = b.release := rfl
@[simp] theorem Blocks.fillSlot_op (c : Ctx) (i : Nat) (f : Frame) : (Blocks.fillSlot c b i f).op = b.op := rfl
@[simp] theorem Blocks.fillSlot_ports (c : Ctx) (i : Nat) (f : Frame) : (Blocks.fillSlot c b i f).ports = b.ports := rfl

@[simp] theorem Blocks.cancelSlots_lots (p : SlotEntry → Bool) : (b.cancelSlots p).lots = b.lots := rfl
@[simp] theorem Blocks.cancelSlots_bids (p : SlotEntry → Bool) : (b.cancelSlots p).bids = b.bids := rfl
@[simp] theorem Blocks.cancelSlots_custody (p : SlotEntry → Bool) : (b.cancelSlots p).custody = b.custody := rfl
@[simp] theorem Blocks.cancelSlots_setup (p : SlotEntry → Bool) : (b.cancelSlots p).setup = b.setup := rfl
@[simp] theorem Blocks.cancelSlots_td (p : SlotEntry → Bool) : (b.cancelSlots p).td = b.td := rfl
@[simp] theorem Blocks.cancelSlots_remote (p : SlotEntry → Bool) : (b.cancelSlots p).remote = b.remote := rfl
@[simp] theorem Blocks.cancelSlots_family (p : SlotEntry → Bool) : (b.cancelSlots p).family = b.family := rfl
@[simp] theorem Blocks.cancelSlots_release (p : SlotEntry → Bool) : (b.cancelSlots p).release = b.release := rfl
@[simp] theorem Blocks.cancelSlots_op (p : SlotEntry → Bool) : (b.cancelSlots p).op = b.op := rfl
@[simp] theorem Blocks.cancelSlots_ports (p : SlotEntry → Bool) : (b.cancelSlots p).ports = b.ports := rfl
@[simp] theorem Blocks.unplaceRing_link : (b.unplaceRing).link = b.link := rfl
@[simp] theorem Blocks.unplaceRing_lots : (b.unplaceRing).lots = b.lots := rfl
@[simp] theorem Blocks.unplaceRing_bids : (b.unplaceRing).bids = b.bids := rfl
@[simp] theorem Blocks.unplaceRing_custody : (b.unplaceRing).custody = b.custody := rfl
@[simp] theorem Blocks.unplaceRing_setup : (b.unplaceRing).setup = b.setup := rfl
@[simp] theorem Blocks.unplaceRing_td : (b.unplaceRing).td = b.td := rfl
@[simp] theorem Blocks.unplaceRing_remote : (b.unplaceRing).remote = b.remote := rfl
@[simp] theorem Blocks.unplaceRing_family : (b.unplaceRing).family = b.family := rfl
@[simp] theorem Blocks.unplaceRing_op : (b.unplaceRing).op = b.op := rfl
@[simp] theorem Blocks.unplaceRing_ports : (b.unplaceRing).ports = b.ports := rfl
@[simp] theorem Blocks.modRing_link (i : Nat) (f : RingEntry → RingEntry) : (b.modRing i f).link = b.link := rfl
@[simp] theorem Blocks.modRing_lots (i : Nat) (f : RingEntry → RingEntry) : (b.modRing i f).lots = b.lots := rfl
@[simp] theorem Blocks.modRing_bids (i : Nat) (f : RingEntry → RingEntry) : (b.modRing i f).bids = b.bids := rfl
@[simp] theorem Blocks.modRing_custody (i : Nat) (f : RingEntry → RingEntry) : (b.modRing i f).custody = b.custody := rfl
@[simp] theorem Blocks.modRing_setup (i : Nat) (f : RingEntry → RingEntry) : (b.modRing i f).setup = b.setup := rfl
@[simp] theorem Blocks.modRing_td (i : Nat) (f : RingEntry → RingEntry) : (b.modRing i f).td = b.td := rfl
@[simp] theorem Blocks.modRing_remote (i : Nat) (f : RingEntry → RingEntry) : (b.modRing i f).remote = b.remote := rfl
@[simp] theorem Blocks.modRing_family (i : Nat) (f : RingEntry → RingEntry) : (b.modRing i f).family = b.family := rfl
@[simp] theorem Blocks.modRing_op (i : Nat) (f : RingEntry → RingEntry) : (b.modRing i f).op = b.op := rfl
@[simp] theorem Blocks.modRing_ports (i : Nat) (f : RingEntry → RingEntry) : (b.modRing i f).ports = b.ports := rfl
@[simp] theorem Blocks.lineSent_link : (b.lineSent).link = b.link := rfl
@[simp] theorem Blocks.lineSent_lots : (b.lineSent).lots = b.lots := rfl
@[simp] theorem Blocks.lineSent_bids : (b.lineSent).bids = b.bids := rfl
@[simp] theorem Blocks.lineSent_custody : (b.lineSent).custody = b.custody := rfl
@[simp] theorem Blocks.lineSent_setup : (b.lineSent).setup = b.setup := rfl
@[simp] theorem Blocks.lineSent_td : (b.lineSent).td = b.td := rfl
@[simp] theorem Blocks.lineSent_remote : (b.lineSent).remote = b.remote := rfl
@[simp] theorem Blocks.lineSent_family : (b.lineSent).family = b.family := rfl
@[simp] theorem Blocks.lineSent_release : (b.lineSent).release = b.release := rfl
@[simp] theorem Blocks.lineSent_ports : (b.lineSent).ports = b.ports := rfl

/-! ## Fields an update writes -/

@[simp] theorem Blocks.modSetup_setup (f : SetupUnit → SetupUnit) : (b.modSetup f).setup = f b.setup := rfl
@[simp] theorem Blocks.modTd_td (f : TdUnit → TdUnit) : (b.modTd f).td = f b.td := rfl
@[simp] theorem Blocks.modLink_link (f : LinkCtl → LinkCtl) : (b.modLink f).link = f b.link := rfl
@[simp] theorem Blocks.modFamily_family (f : FamilyUnit → FamilyUnit) : (b.modFamily f).family = f b.family := rfl
@[simp] theorem Blocks.setLatch_td : b.setLatch.td = { b.td with latch := true } := rfl
@[simp] theorem Blocks.modLot_lots (id : Nat) (f : LotRecord → LotRecord) :
    (b.modLot id f).lots = b.lots.map (fun r => if r.lot == id then f r else r) := rfl
@[simp] theorem Blocks.dropLot_lots (id : Nat) : (b.dropLot id).lots = b.lots.filter (fun r => r.lot != id) := rfl
@[simp] theorem Blocks.reply_op (r : Reply) : (b.reply r).op = { b.op with replies := b.op.replies ++ [r] } := rfl
@[simp] theorem Blocks.toHandler_ports (m : HandlerMsg) :
    (b.toHandler m).ports = { b.ports with toHandler := b.ports.toHandler ++ [m] } := rfl
@[simp] theorem Blocks.toTester_ports (m : TesterMsg) :
    (b.toTester m).ports = { b.ports with toTester := b.ports.toTester ++ [m] } := rfl
@[simp] theorem Blocks.beginLine_op : b.beginLine.op = b.op.begin := rfl

@[simp] theorem Blocks.unplaceRing_release :
    b.unplaceRing.release = { b.release with ring := b.release.ring.map (fun y => { y with placement := none }) } := rfl
@[simp] theorem Blocks.modRing_release (i : Nat) (f : RingEntry → RingEntry) :
    (b.modRing i f).release = { b.release with ring := b.release.ring.modify i f } := rfl
@[simp] theorem LinkCtl.drive_slots (l : LinkCtl) (x : LineSignal) : (l.drive x).slots = l.slots := rfl
@[simp] theorem LinkCtl.drive_requests (l : LinkCtl) (x : LineSignal) : (l.drive x).requests = l.requests := rfl
@[simp] theorem LinkCtl.drive_placements (l : LinkCtl) (x : LineSignal) : (l.drive x).placements = l.placements := rfl
@[simp] theorem LinkCtl.drive_txErr (l : LinkCtl) (x : LineSignal) : (l.drive x).txErr = l.txErr := rfl
@[simp] theorem LinkCtl.drive_rxErr (l : LinkCtl) (x : LineSignal) : (l.drive x).rxErr = l.rxErr := rfl
@[simp] theorem LinkCtl.drive_state (l : LinkCtl) (x : LineSignal) : (l.drive x).state = l.state := rfl
@[simp] theorem LinkCtl.drive_joined (l : LinkCtl) (x : LineSignal) : (l.drive x).joined = l.joined := rfl
@[simp] theorem LinkCtl.drive_rejoinAcc (l : LinkCtl) (x : LineSignal) : (l.drive x).rejoinAcc = l.rejoinAcc := rfl
@[simp] theorem LinkCtl.drive_clash (l : LinkCtl) (x : LineSignal) : (l.drive x).clash = l.clash := rfl
@[simp] theorem LinkCtl.drive_signals (l : LinkCtl) (x : LineSignal) : (l.drive x).signals = l.signals ++ [x] := rfl

@[simp] theorem Blocks.cancelFrames_link_txErr (p : Frame → Bool) : (b.cancelFrames p).link.txErr = b.link.txErr := rfl
@[simp] theorem Blocks.cancelFrames_link_rxErr (p : Frame → Bool) : (b.cancelFrames p).link.rxErr = b.link.rxErr := rfl
@[simp] theorem Blocks.cancelFrames_link_state (p : Frame → Bool) : (b.cancelFrames p).link.state = b.link.state := rfl
@[simp] theorem Blocks.cancelFrames_link_joined (p : Frame → Bool) : (b.cancelFrames p).link.joined = b.link.joined := rfl
@[simp] theorem Blocks.cancelFrames_link_rejoinAcc (p : Frame → Bool) : (b.cancelFrames p).link.rejoinAcc = b.link.rejoinAcc := rfl
@[simp] theorem Blocks.cancelFrames_link_clash (p : Frame → Bool) : (b.cancelFrames p).link.clash = b.link.clash := rfl
@[simp] theorem Blocks.cancelFrames_link_requests (p : Frame → Bool) : (b.cancelFrames p).link.requests = b.link.requests := rfl
@[simp] theorem Blocks.cancelFrames_link_placements (p : Frame → Bool) : (b.cancelFrames p).link.placements = b.link.placements := rfl
@[simp] theorem Blocks.cancelFrames_link_signals (p : Frame → Bool) : (b.cancelFrames p).link.signals = b.link.signals := rfl
@[simp] theorem Blocks.fillSlot_link_signals (c : Ctx) (i : Nat) (f : Frame) : (Blocks.fillSlot c b i f).link.signals = b.link.signals := rfl
@[simp] theorem Blocks.fillSlot_link_txErr (c : Ctx) (i : Nat) (f : Frame) : (Blocks.fillSlot c b i f).link.txErr = b.link.txErr := rfl
@[simp] theorem Blocks.fillSlot_link_rxErr (c : Ctx) (i : Nat) (f : Frame) : (Blocks.fillSlot c b i f).link.rxErr = b.link.rxErr := rfl
@[simp] theorem Blocks.fillSlot_link_state (c : Ctx) (i : Nat) (f : Frame) : (Blocks.fillSlot c b i f).link.state = b.link.state := rfl
@[simp] theorem Blocks.fillSlot_link_joined (c : Ctx) (i : Nat) (f : Frame) : (Blocks.fillSlot c b i f).link.joined = b.link.joined := rfl
@[simp] theorem Blocks.fillSlot_link_rejoinAcc (c : Ctx) (i : Nat) (f : Frame) : (Blocks.fillSlot c b i f).link.rejoinAcc = b.link.rejoinAcc := rfl
@[simp] theorem Blocks.fillSlot_link_clash (c : Ctx) (i : Nat) (f : Frame) : (Blocks.fillSlot c b i f).link.clash = b.link.clash := rfl
@[simp] theorem Blocks.fillSlot_link_requests (c : Ctx) (i : Nat) (f : Frame) : (Blocks.fillSlot c b i f).link.requests = b.link.requests := rfl
@[simp] theorem Blocks.note_op_sending (n : Notice) : (b.note n).op.sending = b.op.sending := by unfold Blocks.note; split <;> rfl
@[simp] theorem Blocks.note_op_replies (n : Notice) : (b.note n).op.replies = b.op.replies := by unfold Blocks.note; split <;> rfl
@[simp] theorem Blocks.note_op_waiting (n : Notice) : (b.note n).op.waiting = b.op.waiting := by unfold Blocks.note; split <;> rfl
@[simp] theorem Blocks.note_op_busyBehind (n : Notice) : (b.note n).op.busyBehind = b.op.busyBehind := by unfold Blocks.note; split <;> rfl
@[simp] theorem Blocks.note_op_restarting (n : Notice) : (b.note n).op.restarting = b.op.restarting := by unfold Blocks.note; split <;> rfl
@[simp] theorem Blocks.note_op_beforeReset (n : Notice) : (b.note n).op.beforeReset = b.op.beforeReset := by unfold Blocks.note; split <;> rfl
@[simp] theorem Blocks.note_op_gathered (n : Notice) : (b.note n).op.gathered = b.op.gathered := by unfold Blocks.note; split <;> rfl
@[simp] theorem Blocks.note_op_tooLong (n : Notice) : (b.note n).op.tooLong = b.op.tooLong := by unfold Blocks.note; split <;> rfl
@[simp] theorem Blocks.note_op_discarding (n : Notice) : (b.note n).op.discarding = b.op.discarding := by unfold Blocks.note; split <;> rfl
@[simp] theorem Blocks.note_op_sent (n : Notice) : (b.note n).op.sent = b.op.sent := by unfold Blocks.note; split <;> rfl

/-! ## Looking a record up -/

theorem find_map_same (l : List LotRecord) (id : Nat) (f : LotRecord → LotRecord) (hf : ∀ r, (f r).lot = r.lot) :
    (l.map (fun r => if r.lot == id then f r else r)).find? (fun r => r.lot == id) =
      (l.find? (fun r => r.lot == id)).map f := by
  induction l with
  | nil => rfl
  | cons r l ih =>
    rw [List.map_cons, List.find?_cons, List.find?_cons]
    cases h : r.lot == id
    · simp only [h, Bool.false_eq_true, if_false]; exact ih
    · simp only [hf, h, if_true, Option.map_some]

theorem find_map_other (l : List LotRecord) (id other : Nat) (f : LotRecord → LotRecord) (hf : ∀ r, (f r).lot = r.lot)
    (hne : other ≠ id) :
    (l.map (fun r => if r.lot == id then f r else r)).find? (fun r => r.lot == other) = l.find? (fun r => r.lot == other) := by
  induction l with
  | nil => rfl
  | cons r l ih =>
    rw [List.map_cons, List.find?_cons, List.find?_cons]
    have hl : (if (r.lot == id) = true then f r else r).lot = r.lot := by split <;> simp [hf]
    rw [hl]
    cases h2 : r.lot == other
    · exact ih
    · have : (r.lot == id) = false := by
        have : r.lot = other := by simpa using h2
        simp [this, hne]
      simp [this]

/-- A record changed by `modLot` is found changed. -/
theorem Blocks.lot?_modLot_same (id : Nat) (f : LotRecord → LotRecord) (hf : ∀ r, (f r).lot = r.lot) :
    (b.modLot id f).lot? id = (b.lot? id).map f := find_map_same b.lots id f hf

/-- Every other record is found as before. -/
theorem Blocks.lot?_modLot_other (id other : Nat) (f : LotRecord → LotRecord) (hf : ∀ r, (f r).lot = r.lot)
    (hne : other ≠ id) : (b.modLot id f).lot? other = b.lot? other := find_map_other b.lots id other f hf hne

/-- `lot?` reads the lot table alone. -/
theorem Blocks.lot?_congr {b b' : Blocks} (h : b'.lots = b.lots) (id : Nat) : b'.lot? id = b.lot? id := by
  unfold Blocks.lot?; rw [h]

@[simp] theorem Blocks.lot?_note (n : Notice) (id : Nat) : (b.note n).lot? id = b.lot? id :=
  Blocks.lot?_congr (Blocks.note_lots b n) id

/-- A record that is found has the id it was looked up by. -/
theorem Blocks.lot?_lot {b : Blocks} {id : Nat} {r : LotRecord} (h : b.lot? id = some r) : r.lot = id := by
  have := List.find?_some h
  simpa using this

/-- A record that is found is in the table. -/
theorem Blocks.lot?_mem {b : Blocks} {id : Nat} {r : LotRecord} (h : b.lot? id = some r) : r ∈ b.lots :=
  List.mem_of_find?_eq_some h

/-- A removed record is no longer found. -/
theorem Blocks.lot?_dropLot_same (id : Nat) : (b.dropLot id).lot? id = none := by
  simp [Blocks.lot?, List.find?_eq_none]

/-! ## Queueing a notice -/

/-- What queueing a notice can do (R187). -/
theorem Blocks.note_op (n : Notice) :
    (b.note n).op = (if b.op.notices.length < Config.noticeCapacity then { b.op with notices := b.op.notices ++ [n] }
      else { b.op with overflowMark := true, overflowCount := min 255 (b.op.overflowCount + 1) }) := by
  unfold Blocks.note; split <;> rfl

/-- A notice queued while fewer than 16 wait is the newest of the queue. -/
theorem Blocks.note_notices (n : Notice) (h : b.op.notices.length < 16) : (b.note n).op.notices = b.op.notices ++ [n] := by
  rw [Blocks.note_op, if_pos (by simpa [Config.noticeCapacity] using h)]

/-! ## Taking a command -/

/-- What a command does to a part that does not run: nothing (R190 to R192). -/
theorem State.take_of_not_live (s : State) (rule : Ctx → Blocks → Blocks) (h : s.live = false) : s.take rule = s := by
  simp [State.take, h]

/-- What a command does to a part that runs. -/
theorem State.take_of_live (s : State) (rule : Ctx → Blocks → Blocks) (h : s.live = true) :
    s.take rule = { s with blocks := (rule s.ctx s.blocks).beginLine } := by
  simp [State.take, h]

/-- What a command followed by what follows every change does to a part that runs. -/
theorem State.act_of_live (s : State) (rule : Ctx → Blocks → Blocks) (h : s.live = true) :
    s.act rule = s.settled (rule s.ctx s.blocks) := by
  simp [State.act, State.take, State.settled, h]

/-- ... and to one that does not. -/
theorem State.act_of_not_live (s : State) (rule : Ctx → Blocks → Blocks) (h : s.live = false) : s.act rule = s := by
  simp [State.act, State.take_of_not_live, h]

/-- A frame that is delivered with its fields in range (R31, R193). -/
theorem State.hear_of_hears (s : State) (src : Nat) (f : FrameData) (rule : Ctx → Blocks → Blocks) (h : s.hears src = true)
    (hf : frameOk f = true) : s.hear src f rule = s.settled (rule s.ctx s.received) := by
  simp only [State.hears, Bool.and_eq_true, bne_iff_ne, ne_eq] at h
  obtain ⟨⟨⟨hl, hu⟩, hs⟩, ho⟩ := h
  simp [State.hear, hu, State.act_of_live _ _ hl, hs, hf, State.received, State.ctx, ho]

/-- A message of a port that is taken (R194). -/
theorem State.portMessage_of_takes (s : State) (p : Port) (rule : Ctx → Blocks → Blocks) (h : s.takesPort p = true) :
    s.portMessage p rule = s.settled (rule s.ctx s.blocks) := by
  simp only [State.takesPort, Bool.and_eq_true, Bool.not_eq_true'] at h
  simp [State.portMessage, h.2, State.act_of_live _ _ h.1]

/-- A line completed while no reply is being sent is parsed at once (R183). -/
theorem State.onLine_of_parses (s : State) (cmd : Instr) (h : s.parses = true) :
    s.onLine (lineRule cmd) = { s with blocks := ((requestRule cmd s.ctx s.blocks).afterReply s.ctx).beginLine } := by
  simp only [State.parses, State.live, Bool.and_eq_true, Bool.not_eq_true', beq_iff_eq] at h
  obtain ⟨⟨⟨hr, hh⟩, h1⟩, h2⟩ := h
  simp [State.onLine, State.lineOpen, hr, hh, lineRule, h1, h2, parsedRule, State.ctx]

/-- A request answered OK is followed by what follows every change. -/
theorem Blocks.afterReply_ok (c : Ctx) : (b.reply .ok).afterReply c = (b.reply .ok).settle c := by
  simp [Blocks.afterReply]

theorem Blocks.afterReply_okLot (c : Ctx) (lot : Nat) : (b.reply (.okLot lot)).afterReply c = (b.reply (.okLot lot)).settle c := by
  simp [Blocks.afterReply]

/-- A refused request, and a STATUS, are followed by nothing. -/
theorem Blocks.afterReply_no (c : Ctx) (code : ReplyCode) : (b.reply (.no code)).afterReply c = b.reply (.no code) := by
  simp [Blocks.afterReply]

theorem Blocks.afterReply_status (c : Ctx) (x : StatusSubject) (items : List (List Field)) :
    (b.reply (.status x items)).afterReply c = b.reply (.status x items) := by
  simp [Blocks.afterReply]

/-! ## Time -/

/-- Time that passes while the part runs (R2, R38, R92, R128). -/
theorem State.elapse_of_live (s : State) (ms : Nat) (h : s.live = true) :
    s.elapse ms = { s with clock := clockAfter s.clock ms, blocks := s.blocks.elapse s.ctx ms } := by
  simp only [State.live, Bool.and_eq_true, beq_iff_eq] at h
  simp [State.elapse, h.1]

/-- An expiry that is reached: time runs to the deadline, then its rule is taken. -/
theorem State.expire_of_live (s : State) (t : Nat) (rule : Ctx → Blocks → Blocks) (h : s.live = true) :
    s.expire (some t) rule = (s.elapseTo t).act rule := by
  simp [State.expire, h]

@[simp] theorem Blocks.elapse_lots (c : Ctx) (ms : Nat) : (Blocks.elapse c ms b).lots = b.lots := rfl
@[simp] theorem Blocks.elapse_bids (c : Ctx) (ms : Nat) : (Blocks.elapse c ms b).bids = b.bids := rfl
@[simp] theorem Blocks.elapse_custody (c : Ctx) (ms : Nat) : (Blocks.elapse c ms b).custody = b.custody := rfl
@[simp] theorem Blocks.elapse_remote (c : Ctx) (ms : Nat) : (Blocks.elapse c ms b).remote = b.remote := rfl
@[simp] theorem Blocks.elapse_family (c : Ctx) (ms : Nat) : (Blocks.elapse c ms b).family = b.family := rfl
@[simp] theorem Blocks.elapse_release (c : Ctx) (ms : Nat) : (Blocks.elapse c ms b).release = b.release := rfl
@[simp] theorem Blocks.elapse_op (c : Ctx) (ms : Nat) : (Blocks.elapse c ms b).op = b.op := rfl
@[simp] theorem Blocks.elapse_ports (c : Ctx) (ms : Nat) : (Blocks.elapse c ms b).ports = b.ports := rfl

/-- Time runs only if it has not run so far already. -/
theorem State.elapseTo_cases (s : State) (t : Nat) :
    s.elapseTo t = s ∨ (s.clock < t ∧ s.elapseTo t = s.elapse (t - s.clock)) := by
  unfold State.elapseTo; split
  · exact .inr ⟨‹_›, rfl⟩
  · exact .inl rfl

/-- The part still runs when time has passed. -/
theorem State.elapse_live (s : State) (ms : Nat) : (s.elapse ms).live = s.live := by
  unfold State.elapse; split <;> rfl

theorem State.elapseTo_live (s : State) (t : Nat) : (s.elapseTo t).live = s.live := by
  unfold State.elapseTo; split
  · exact State.elapse_live s _
  · rfl

end Sys2Proof.Machine
end

