-- ==== Sys2Proof/Laws/Ops.lean ====
section
/-! SUPPORT. What the shared operations can do, once each: rewriting a record, raising a hold, cancelling and placing a
frame, queueing a notice, parsing a request. -/

namespace Sys2Proof.Machine

/-! ## Records -/

/-- A change of one record rewrites that record alone. -/
theorem Blocks.modLot_rewrote (b b' : Blocks) (lot : Nat) (f : LotRecord → LotRecord) (hf : ∀ r, (f r).lot = r.lot)
    {r r' : LotRecord} (h : b.lot? lot = some r) (hr : f r = r') (hl : b'.lots = (b.modLot lot f).lots) : b.rewrote b' lot r' := by
  refine ⟨?_, ?_⟩
  · rw [Blocks.lot?_congr hl, Blocks.lot?_modLot_same _ _ _ hf, h]; simp [hr]
  · intro l hne; rw [Blocks.lot?_congr hl, Blocks.lot?_modLot_other _ _ _ _ hf hne]

/-- Two rewritings of one record, one after the other. -/
theorem Blocks.rewrote_trans {b b1 b2 : Blocks} {lot : Nat} {r1 r2 : LotRecord} (h1 : b.rewrote b1 lot r1) (h2 : b1.rewrote b2 lot r2) :
    b.rewrote b2 lot r2 := ⟨h2.1, fun l hl => (h2.2 l hl).trans (h1.2 l hl)⟩

/-- Rewriting reads the lot table alone. -/
theorem Blocks.rewrote_congr {b b1 b' b1' : Blocks} {lot : Nat} {r1 : LotRecord} (h1 : b.rewrote b1 lot r1) (hb : b'.lots = b.lots)
    (h2 : b1'.lots = b1.lots) : b'.rewrote b1' lot r1 :=
  ⟨(Blocks.lot?_congr h2 _).trans h1.1, fun l hl => by rw [Blocks.lot?_congr h2, h1.2 l hl, Blocks.lot?_congr hb]⟩

/-- What raising a hold of scope LOT does to a record in custody that neither is moving nor has an open release window (R142). -/
theorem Blocks.raise_eq (c : Ctx) (b : Blocks) (lot : Nat) (k : HoldKind) (r : LotRecord) (h : b.lot? lot = some r)
    (hc : r.state.custody = true) (he : r.ending = false) (hh : r.hasHold k = false)
    (hs : r.state ≠ .awarded ∧ r.state ≠ .releasing) :
    b.raise c lot k = { b.note (.holdRaised lot k .lot r.insertionNo none) with
        lots := b.lots.map (fun y => if y.lot == lot then
          { y with holds := y.holds ++ [⟨k, y.insertionNo, c.now, .lot, none, []⟩] } else y)
        td := if r.state = .inTest ∨ r.state = .closing then { b.td with latch := true } else b.td } := by
  unfold Blocks.raise Blocks.raiseHold
  rw [h]
  simp only [LotRecord.inCustody, hc, he, hh, Bool.not_true, Bool.or_false, Bool.false_eq_true, if_false]
  obtain ⟨hs1, hs2⟩ := hs
  by_cases hlen : b.op.notices.length < Config.noticeCapacity <;>
    cases hs' : r.state <;> first
      | exact absurd hs' hs1
      | exact absurd hs' hs2
      | (simp only [Blocks.note, Blocks.modLot, Blocks.setLatch, hlen, if_true, if_false, holdRecord]; simp)

/-- An open hold is not raised a second time (R142). -/
theorem Blocks.raise_has (c : Ctx) (b : Blocks) (lot : Nat) (k : HoldKind) (r : LotRecord) (h : b.lot? lot = some r)
    (hh : r.hasHold k = true) : b.raise c lot k = b := by
  unfold Blocks.raise Blocks.raiseHold
  rw [h]; simp [hh]

/-- No record, no change. -/
theorem Blocks.modLot_none (b : Blocks) (lot : Nat) (f : LotRecord → LotRecord) (h : b.lot? lot = none) : b.modLot lot f = b := by
  unfold Blocks.modLot
  have : b.lots.map (fun r => if r.lot == lot then f r else r) = b.lots := by
    conv_rhs => rw [← List.map_id b.lots]
    apply List.map_congr_left
    intro r hr
    have := List.find?_eq_none.1 h r hr
    simp_all
  rw [this]

/-- What the delivery of a frame says of its station field (R31). -/
theorem State.hears_iff {s : State} {src : Nat} (h : s.hears src = true) : stationOk src = true ∧ src ≠ s.straps.toNat ∧ s.live = true ∧ s.blocks.link.up = true := by
  simp only [State.hears, Bool.and_eq_true, bne_iff_ne, ne_eq] at h
  exact ⟨h.1.2, h.2, h.1.1.1, h.1.1.2⟩

/-- What cancelling leaves (R30). -/
theorem Blocks.cancelled_cancelFrames (b : Blocks) (p : Frame → Bool) : (b.cancelFrames p).link.cancelled p := by
  intro y hy e he hp
  simp only [Blocks.cancelFrames, Blocks.cancelSlots, List.mem_map] at hy
  obtain ⟨x, hx, rfl⟩ := hy
  cases x with
  | none => simp at he
  | some z =>
    simp only at he
    split at he
    · split at he
      · simp at he; subst he; simp_all
      · simp at he
    · simp at he; subst he; simp_all

/-- With different lot ids a record is found by its own. -/
theorem find_lot_of_nodup {l : List LotRecord} (hn : (l.map (·.lot)).Nodup) {r : LotRecord} (hr : r ∈ l) :
    l.find? (fun x => x.lot == r.lot) = some r := by
  induction l with
  | nil => simp at hr
  | cons x l ih =>
    rw [List.find?_cons]
    simp only [List.map_cons, List.nodup_cons] at hn
    rcases List.mem_cons.1 hr with rfl | hr
    · simp
    · have : x.lot ≠ r.lot := by
        intro h; apply hn.1; rw [h]; exact List.mem_map_of_mem hr
      rw [beq_eq_false_iff_ne.2 this]; exact ih hn.2 hr

/-- The lot in test is found by its lot id. -/
theorem Blocks.lot?_of_testLot {b : Blocks} (hn : (b.lots.map (·.lot)).Nodup) {r : LotRecord} (h : b.testLot? = some r) : b.lot? r.lot = some r :=
  find_lot_of_nodup hn (List.mem_of_find?_eq_some h)

/-- The lowest EMPTY slot is found. -/
theorem LinkCtl.firstEmpty_of_freeAt {l : LinkCtl} {i : Nat} (h : l.freeAt i) : firstEmpty l.slots = some i := by
  unfold firstEmpty
  rw [List.findIdx?_eq_some_iff_getElem]
  obtain ⟨_, h1, h2⟩ := h
  have hi : i < l.slots.length := by
    by_contra hh
    rw [List.getElem?_eq_none (by omega)] at h1; simp at h1
  refine ⟨hi, ?_, ?_⟩
  · rw [List.getElem?_eq_getElem hi] at h1; simp_all
  · intro j hj
    have := h2 j hj _ (List.getElem?_eq_getElem (by omega))
    cases h3 : l.slots[j]
    · exact absurd h3 this
    · simp

/-- With no request standing nothing is granted (R29). -/
theorem Blocks.serveGrants_of_none (c : Ctx) (k : Nat) (b : Blocks) (h : b.link.requests = []) : Blocks.serveGrants c k b = b := by
  cases k with
  | zero => rfl
  | succ k => rw [Blocks.serveGrants, h]

/-- A frame of class 2 or 3 is placed in the lowest EMPTY slot (R24). -/
theorem Blocks.placeLow_of_freeAt (c : Ctx) (b : Blocks) (f : Frame) (i : Nat) (h : b.link.freeAt i) (hw : b.link.state ≠ .withdrawn)
    (hq : b.link.state = .quiet → f.isOfferOrBid = false) : b.placeLow c f = (b.placed c.own i f, true) := by
  unfold Blocks.placeLow
  rw [Blocks.serveGrants_of_none _ _ _ h.1]
  have h1 := LinkCtl.firstEmpty_of_freeAt h
  by_cases h2 : b.link.state = .quiet <;> simp [hw, h1, h2, hq, Blocks.fillSlot, Blocks.placed]

/-- ... and refused when no slot is EMPTY (R28). -/
theorem Blocks.placeLow_of_full (c : Ctx) (b : Blocks) (f : Frame) (h : b.link.requests = []) (hf : ∀ x ∈ b.link.slots, x ≠ none) :
    b.placeLow c f = (b, false) := by
  unfold Blocks.placeLow
  rw [Blocks.serveGrants_of_none _ _ _ h]
  have : firstEmpty b.link.slots = none := by
    unfold firstEmpty; rw [List.findIdx?_eq_none_iff]; intro x hx
    have := hf x hx
    cases x <;> simp_all
  simp only [this]; split <;> rfl

/-- Blocks are equal field by field. -/
theorem Blocks.ext_fields {x y : Blocks} (h1 : x.link = y.link) (h2 : x.lots = y.lots) (h3 : x.bids = y.bids) (h4 : x.custody = y.custody)
  (h5 : x.setup = y.setup) (h6 : x.td = y.td) (h7 : x.remote = y.remote) (h8 : x.family = y.family) (h9 : x.release = y.release)
  (h10 : x.op = y.op) (h11 : x.ports = y.ports) : x = y := by
  cases x; cases y; simp_all

/-- A notice queued while fewer than 16 wait is in the queue. -/
theorem Blocks.mem_note_self (b : Blocks) (n : Notice) : b.op.notices.length < 16 → n ∈ (b.note n).op.notices := by
  intro h; rw [Blocks.note_notices _ _ h]; simp

/-- A queued notice stays queued. -/
theorem Blocks.mem_note_of_mem (b : Blocks) (n m : Notice) (h : m ∈ b.op.notices) : m ∈ (b.note n).op.notices := by
  rw [Blocks.note_op]; split <;> simp [h]

end Sys2Proof.Machine
end

