-- ==== Sys2Proof/Laws/Steady.lean ====
section
/-! SUPPORT. What every rule of the blocks keeps. `Steady P` says that a property of the blocks survives the plain
changes the rules are made of; each lemma below says that one rule then keeps the property. A new lot record is the only
change left out: it is made by ENTER and by a won bid alone. -/

namespace Sys2Proof.Machine

/-- A property of the blocks that survives every plain change a rule makes. -/
structure Steady (P : Blocks → Prop) : Prop where
  note : ∀ {b : Blocks} (n : Notice), P b → P (b.note n)
  lots : ∀ {b : Blocks} (l : List LotRecord), P b → (l.map (·.lot)).Sublist (b.lots.map (·.lot)) → P { b with lots := l }
  bids : ∀ {b : Blocks} (l : List BidRecord), P b → l.length ≤ b.bids.length → P { b with bids := l }
  bid : ∀ {b : Blocks} (r : BidRecord), P b → b.bids.length < 4 → b.places < 16 → P { b with bids := b.bids ++ [r] }
  custody : ∀ {b : Blocks} (x : CustodyUnit), P b → P { b with custody := x }
  setup : ∀ {b : Blocks} (x : SetupUnit), P b → P { b with setup := x }
  remote : ∀ {b : Blocks} (x : Option RemoteDisposition), P b → P { b with remote := x }
  td : ∀ {b : Blocks} (x : TdUnit), P b → x.timerRing.length ≤ max 16 b.td.timerRing.length → P { b with td := x }
  family : ∀ {b : Blocks} (x : FamilyUnit), P b → x.entries.length ≤ max 16 b.family.entries.length →
    x.clearDue.length ≤ max 16 b.family.clearDue.length → P { b with family := x }
  release : ∀ {b : Blocks} (x : ReleaseUnit), P b → x.ring.length ≤ max 8 b.release.ring.length →
    x.objections.length ≤ max 16 b.release.objections.length → P { b with release := x }
  ports : ∀ {b : Blocks} (x : CellPorts), P b → x.handlerIgnoring = b.ports.handlerIgnoring →
    x.testerIgnoring = b.ports.testerIgnoring → P { b with ports := x }
  thin : ∀ {b : Blocks} (l : List (Option SlotEntry)), P b → l.length = b.link.slots.length →
    ((∀ x ∈ b.link.slots, x = none) → ∀ x ∈ l, x = none) → P { b with link := { b.link with slots := l } }
  fill : ∀ {b : Blocks} (l : List (Option SlotEntry)) (q : List (Block × Nat)) (n : Nat), P b →
    l.length = b.link.slots.length → (b.link.state ≠ .withdrawn ∨ b.link.requests ≠ []) →
    P { b with link := { b.link with slots := l, requests := q, placements := n } }
  clash : ∀ {b : Blocks}, P b → P { b with link := { b.link with clash := true } }

/-- ... and every change of the link controller that keeps its six slots. -/
structure SteadyEvents (P : Blocks → Prop) : Prop extends Steady P where
  link : ∀ {b : Blocks} (l : LinkCtl), P b → (l.slots.length = b.link.slots.length ∨ l.slots.length = 6) → P { b with link := l }

variable {P : Blocks → Prop} (hP : Steady P) {b : Blocks}
include hP

/-! ## The plain operations -/

theorem steady_note (n : Notice) (h : P b) : P (b.note n) := hP.note n h

theorem steady_mapLots (f : LotRecord → LotRecord) (hf : ∀ r, (f r).lot = r.lot) (h : P b) :
    P { b with lots := b.lots.map f } := by
  refine hP.lots _ h ?_
  have : (b.lots.map f).map (·.lot) = b.lots.map (·.lot) := by simp [hf]
  rw [this]

theorem steady_modLot (id : Nat) (f : LotRecord → LotRecord) (hf : ∀ r, (f r).lot = r.lot) (h : P b) :
    P (b.modLot id f) :=
  steady_mapLots hP _ (fun r => by split <;> simp [hf]) h

theorem steady_dropLot (id : Nat) (h : P b) : P (b.dropLot id) :=
  hP.lots _ h (List.filter_sublist.map _)

theorem steady_toHandler (m : HandlerMsg) (h : P b) : P (b.toHandler m) := hP.ports _ h rfl rfl

theorem steady_toTester (m : TesterMsg) (h : P b) : P (b.toTester m) := hP.ports _ h rfl rfl

theorem steady_modSetup (f : SetupUnit → SetupUnit) (h : P b) : P (b.modSetup f) := hP.setup _ h

theorem steady_modTd (f : TdUnit → TdUnit) (hf : (f b.td).timerRing.length ≤ max 16 b.td.timerRing.length) (h : P b) :
    P (b.modTd f) := hP.td _ h hf

theorem steady_modFamily (f : FamilyUnit → FamilyUnit) (h1 : (f b.family).entries.length ≤ max 16 b.family.entries.length)
    (h2 : (f b.family).clearDue.length ≤ max 16 b.family.clearDue.length) (h : P b) : P (b.modFamily f) :=
  hP.family _ h h1 h2

theorem steady_mapBids (f : BidRecord → BidRecord) (h : P b) : P { b with bids := b.bids.map f } :=
  hP.bids _ h (by simp)

theorem steady_filterBids (p : BidRecord → Bool) (h : P b) : P { b with bids := b.bids.filter p } :=
  hP.bids _ h (List.length_filter_le _ _)

theorem steady_mapRing (f : RingEntry → RingEntry) (h : P b) :
    P { b with release := { b.release with ring := b.release.ring.map f } } :=
  hP.release _ h (by simp) (by simp)

theorem steady_custody (x : CustodyUnit) (h : P b) : P { b with custody := x } := hP.custody x h

theorem steady_remote (x : Option RemoteDisposition) (h : P b) : P { b with remote := x } := hP.remote x h

omit hP in
theorem steady_foldl {α : Type} (f : Blocks → α → Blocks) (hf : ∀ b x, P b → P (f b x)) (l : List α) (h : P b) :
    P (l.foldl f b) := by
  induction l generalizing b with
  | nil => exact h
  | cons x l ih => exact ih (hf b x h)

omit hP in
theorem steady_forLots (l : List Nat) (f : Blocks → Nat → Blocks) (hf : ∀ b x, P b → P (f b x)) (h : P b) :
    P (b.forLots l f) := steady_foldl f hf l h

/-! ## The transmit slots -/

theorem steady_cancelSlots (p : SlotEntry → Bool) (h : P b) : P (b.cancelSlots p) := by
  refine hP.thin _ h (by simp) ?_
  intro hn x hx
  obtain ⟨y, hy, rfl⟩ := List.mem_map.1 hx
  rw [hn y hy]

theorem steady_cancelFrames (p : Frame → Bool) (h : P b) : P (b.cancelFrames p) := steady_cancelSlots hP _ h

theorem steady_fillSlot (c : Ctx) (i : Nat) (f : Frame) (hw : b.link.state ≠ .withdrawn) (h : P b) :
    P (Blocks.fillSlot c b i f) :=
  hP.fill (b := b) _ b.link.requests _ h (by simp) (.inl hw)

theorem steady_request (o : Block) (cls : Nat) (hw : b.link.state ≠ .withdrawn) (h : P b) : P (b.request o cls) := by
  unfold Blocks.request
  split
  · exact h
  · exact hP.fill (b := b) b.link.slots _ b.link.placements h rfl (.inl hw)

theorem steady_notePlaced (f : Frame) (h : P b) : P (b.notePlaced f) := by
  unfold Blocks.notePlaced
  repeat' split
  all_goals first
    | exact h
    | exact hP.family (b := b) _ h (Nat.le_max_right _ _) (Nat.le_max_right _ _)

omit hP in
theorem notePlaced_link (b : Blocks) (f : Frame) : (b.notePlaced f).link = b.link := by
  unfold Blocks.notePlaced
  repeat' first
    | split
    | rfl

/-- A grant: the slot is filled and the request list is whatever it then is. -/
theorem steady_grant (c : Ctx) (i : Nat) (f : Frame) (rest : List (Block × Nat)) (hq : b.link.requests ≠ []) (h : P b) :
    P ((Blocks.fillSlot c { b with link := { b.link with requests := rest } } i f).notePlaced f) :=
  steady_notePlaced hP f (hP.fill (b := b) (b.link.slots.set i _) rest _ h (by simp) (.inr hq))

theorem steady_grantMore (c : Ctx) (i : Nat) (f : Frame) (rest : List (Block × Nat)) (o : Block) (cls : Nat)
    (hq : b.link.requests ≠ []) (h : P b) :
    P (((Blocks.fillSlot c { b with link := { b.link with requests := rest } } i f).notePlaced f).request o cls) := by
  unfold Blocks.request
  split
  · exact steady_grant hP c i f rest hq h
  · unfold Blocks.notePlaced
    have key : ∀ q, P { b with link := { b.link with
        slots := b.link.slots.set i (some ⟨f, frameIdentifier c.own f.data, b.link.placements + 1, false, false⟩)
        requests := q
        placements := b.link.placements + 1 } } := fun q => hP.fill (b := b) _ q _ h (by simp) (.inr hq)
    repeat' split
    all_goals first
      | exact key _
      | exact hP.family _ (key _) (Nat.le_max_right _ _) (Nat.le_max_right _ _)

theorem steady_serveGrants (c : Ctx) (k : Nat) (h : P b) : P (Blocks.serveGrants c k b) := by
  induction k generalizing b with
  | zero => exact h
  | succ k ih =>
    unfold Blocks.serveGrants
    split
    · rename_i o x rest i hq hi
      have hne : b.link.requests ≠ [] := by rw [hq]; simp
      have h0 : P { b with link := { b.link with requests := rest } } :=
        hP.fill (b := b) b.link.slots rest b.link.placements h rfl (.inr hne)
      dsimp only
      split
      · exact ih h0
      · split
        · exact ih (steady_grantMore hP c i _ rest _ _ hne h)
        · exact ih (steady_grant hP c i _ rest hne h)
    · exact h

end Sys2Proof.Machine
end

