-- ==== Sys2Proof/Laws/SteadySlots.lean ====
section
/-! SUPPORT. What every rule of the blocks keeps: the transmit slots. -/

namespace Sys2Proof.Machine

variable {P : Blocks → Prop} (hP : Steady P) {b : Blocks}
include hP

theorem steady_dropBid (lot : Nat) (h : P b) : P (Blocks.dropBid b lot) := by
  unfold Blocks.dropBid
  try dsimp only
  repeat' first
    | assumption
    | (with_reducible apply steady_modLot hP)
    | (with_reducible apply steady_cancelFrames hP)
    | (intro r; rfl)
    | split
    | (with_reducible refine steady_filterBids hP _ ?_)

theorem steady_offerBack (c : Ctx) (lot : Nat) (h : P b) : P (Blocks.offerBack c b lot) := by
  unfold Blocks.offerBack
  try dsimp only
  repeat' first
    | assumption
    | (with_reducible apply steady_dropBid hP)
    | (with_reducible apply steady_modLot hP)
    | (intro r; rfl)
    | split

theorem steady_abandonWindow (lot : Nat) (cause : AbandonCause) (retry : Option Nat) (h : P b) : P (Blocks.abandonWindow b lot cause retry) := by
  unfold Blocks.abandonWindow
  try dsimp only
  repeat' first
    | assumption
    | (with_reducible apply steady_note hP)
    | (with_reducible apply steady_modLot hP)
    | (with_reducible apply steady_cancelFrames hP)
    | (intro r; rfl)
    | split

theorem steady_shippedDisplaced (c : Ctx) (e : SlotEntry) (h : P b) : P (Blocks.shippedDisplaced c b e) :=
  steady_mapRing hP _ h

theorem steady_remoteNotSent  (h : P b) : P (Blocks.remoteNotSent b) := by
  unfold Blocks.remoteNotSent
  try dsimp only
  repeat' first
    | assumption
    | (with_reducible apply steady_note hP)
    | split
    | (with_reducible refine hP.remote _ ?_)

theorem steady_toldUnsent (c : Ctx) (e : SlotEntry) (h : P b) : P (Blocks.toldUnsent c b e) := by
  unfold Blocks.toldUnsent
  try dsimp only
  repeat' first
    | assumption
    | (with_reducible apply steady_remoteNotSent hP)
    | (with_reducible apply steady_shippedDisplaced hP)
    | (with_reducible apply steady_abandonWindow hP)
    | (with_reducible apply steady_offerBack hP)
    | (with_reducible apply steady_dropBid hP)
    | split
    | (with_reducible refine hP.family _ ?_ (Nat.le_max_right _ _) (Nat.le_max_right _ _))

omit hP in
/-- All that serving grants can change: the link controller, and the mark of the roll-call cursor. -/
theorem serveGrants_eq (c : Ctx) (k : Nat) (b : Blocks) : ∃ l cu,
    Blocks.serveGrants c k b = { b with link := l, family := { b.family with cursor := cu } } := by
  induction k generalizing b with
  | zero => exact ⟨b.link, b.family.cursor, rfl⟩
  | succ k ih =>
    have hn : ∀ (b : Blocks) (f : Frame), ∃ cu, b.notePlaced f = { b with family := { b.family with cursor := cu } } := by
      intro b f
      unfold Blocks.notePlaced
      repeat' split
      all_goals first
        | exact ⟨b.family.cursor, rfl⟩
        | exact ⟨_, rfl⟩
    have hr : ∀ (b : Blocks) o cls, ∃ l, b.request o cls = { b with link := l } := by
      intro b o cls
      unfold Blocks.request
      split
      · exact ⟨b.link, rfl⟩
      · exact ⟨_, rfl⟩
    unfold Blocks.serveGrants
    split
    · dsimp only
      split
      · obtain ⟨l, cu, h⟩ := ih { b with link := { b.link with requests := _ } }
        exact ⟨l, cu, h⟩
      · rename_i o x rest i hq hi _ f hf
        obtain ⟨cu1, h1⟩ := hn (Blocks.fillSlot c { b with link := { b.link with requests := rest } } i f) f
        split
        · rename_i f' _
          obtain ⟨l2, h2⟩ := hr ((Blocks.fillSlot c { b with link := { b.link with requests := rest } } i f).notePlaced f) o
            (frameClass f'.data)
          obtain ⟨l, cu, h⟩ := ih (((Blocks.fillSlot c { b with link := { b.link with requests := rest } } i f).notePlaced f).request o
            (frameClass f'.data))
          refine ⟨l, cu, h.trans ?_⟩
          rw [h2, h1]
          rfl
        · obtain ⟨l, cu, h⟩ := ih ((Blocks.fillSlot c { b with link := { b.link with requests := rest } } i f).notePlaced f)
          refine ⟨l, cu, h.trans ?_⟩
          rw [h1]
          rfl
    · exact ⟨b.link, b.family.cursor, rfl⟩

omit hP in
/-- All that placing a frame of class 2 or 3 can change. -/
theorem placeLow_eq (c : Ctx) (b : Blocks) (f : Frame) : ∃ l cu,
    (b.placeLow c f).1 = { b with link := l, family := { b.family with cursor := cu } } := by
  obtain ⟨l, cu, h⟩ := serveGrants_eq c grantRounds b
  unfold Blocks.placeLow
  dsimp only
  rw [h]
  split
  · exact ⟨l, cu, rfl⟩
  · split
    · exact ⟨_, cu, rfl⟩
    · exact ⟨l, cu, rfl⟩

theorem steady_placeLow (c : Ctx) (f : Frame) (h : P b) : P (Blocks.placeLow c b f).1 := by
  have h0 : P (b.serveGrants c grantRounds) := steady_serveGrants hP c _ h
  unfold Blocks.placeLow
  dsimp only
  split
  · exact h0
  · rename_i hw
    split
    · refine steady_fillSlot hP c _ f ?_ h0
      intro hs
      simp [hs] at hw
    · exact h0


theorem steady_pumpOwner (c : Ctx) (o : Block) (k : Nat) (h : P b) : P (Blocks.pumpOwner c o k b) := by
  induction k generalizing b with
  | zero => exact h
  | succ k ih =>
    unfold Blocks.pumpOwner
    split
    · exact h
    · rename_i hw
      have hw' : b.link.state ≠ .withdrawn := by
        intro hs
        simp [hs] at hw
      split
      · exact h
      · split
        · exact ih (steady_notePlaced hP _ (steady_fillSlot hP c _ _ hw' h))
        · split
          · exact ih (steady_toldUnsent hP c _ (steady_notePlaced hP _ (steady_fillSlot hP c _ _ hw' h)))
          · exact steady_request hP _ _ hw' h

theorem steady_pump (c : Ctx) (h : P b) : P (Blocks.pump c b) :=
  steady_serveGrants hP c _ (steady_pumpOwner hP c _ _ (steady_pumpOwner hP c _ _ (steady_pumpOwner hP c _ _
    (steady_pumpOwner hP c _ _ (steady_serveGrants hP c _ h)))))


end Sys2Proof.Machine
end

