-- ==== Sys2Proof/Laws/SteadyRaise.lean ====
section
/-! SUPPORT. What every rule of the blocks keeps: raising a hold. -/

namespace Sys2Proof.Machine

variable {P : Blocks → Prop} (hP : Steady P) {b : Blocks}
include hP

theorem steady_stopDossier (lot : Nat) (h : P b) : P (Blocks.stopDossier b lot) := by
  unfold Blocks.stopDossier
  try dsimp only
  repeat' first
    | assumption
    | (with_reducible apply steady_modLot hP)
    | (with_reducible apply steady_cancelFrames hP)
    | (intro r; rfl)
    | split
    | (with_reducible refine hP.custody _ ?_)

theorem steady_setLatch  (h : P b) : P (Blocks.setLatch b) := by
  unfold Blocks.setLatch
  try dsimp only
  repeat' first
    | assumption
    | split
    | (with_reducible refine hP.td _ ?_ (Nat.le_max_right _ _))

theorem steady_raiseHold (c : Ctx) (lot : Nat) (k : HoldKind) (scope : Scope) (trigger : Option (Int × Int)) (bins : List Nat) (h : P b) : P (Blocks.raiseHold c b lot k scope trigger bins) := by
  unfold Blocks.raiseHold
  try dsimp only
  repeat' first
    | assumption
    | (with_reducible apply steady_setLatch hP)
    | (with_reducible apply steady_stopDossier hP)
    | (with_reducible apply steady_abandonWindow hP)
    | (with_reducible apply steady_note hP)
    | (with_reducible apply steady_modLot hP)
    | (intro r; rfl)
    | split

theorem steady_raise (c : Ctx) (lot : Nat) (k : HoldKind) (h : P b) : P (Blocks.raise c b lot k) := by
  unfold Blocks.raise
  try dsimp only
  repeat' first
    | assumption
    | (with_reducible apply steady_raiseHold hP)

theorem steady_raiseSites (c : Ctx) (lot : Nat) (h : P b) : P (Blocks.raiseSites c b lot) := by
  unfold Blocks.raiseSites
  try dsimp only
  repeat' first
    | assumption
    | (with_reducible apply steady_raiseHold hP)

theorem steady_raiseRecon (c : Ctx) (lot : Nat) (a : Account) (h : P b) : P (Blocks.raiseRecon c b lot a) := by
  unfold Blocks.raiseRecon
  try dsimp only
  repeat' first
    | assumption
    | (with_reducible apply steady_raiseHold hP)

theorem steady_startTouchdown (c : Ctx) (r : LotRecord) (t : Touchdown) (h : P b) : P (Blocks.startTouchdown c b r t) := by
  unfold Blocks.startTouchdown
  try dsimp only
  repeat' first
    | assumption
    | (with_reducible apply steady_toTester hP)
    | split
    | (with_reducible refine hP.td _ ?_ (Nat.le_max_right _ _))

theorem steady_startParked (c : Ctx) (r : LotRecord) (h : P b) : P (Blocks.startParked c b r) := by
  unfold Blocks.startParked
  try dsimp only
  repeat' first
    | assumption
    | (with_reducible apply steady_startTouchdown hP)
    | split

theorem steady_clearLatch (c : Ctx) (h : P b) : P (Blocks.clearLatch c b) := by
  unfold Blocks.clearLatch
  try dsimp only
  repeat' first
    | assumption
    | (with_reducible apply steady_startParked hP)
    | split
    | (with_reducible refine hP.td _ ?_ (Nat.le_max_right _ _))

theorem steady_enterTest (c : Ctx) (lot : Nat) (h : P b) : P (Blocks.enterTest c b lot) := by
  unfold Blocks.enterTest
  try dsimp only
  repeat' first
    | assumption
    | (with_reducible apply steady_clearLatch hP)
    | (with_reducible apply steady_raiseSites hP)
    | (with_reducible apply steady_modLot hP)
    | (intro r; rfl)
    | split

end Sys2Proof.Machine
end

