-- ==== Sys2Proof/Laws/SteadyEngine.lean ====
section
/-! SUPPORT. What every rule of the blocks keeps: the changeover engine. -/

namespace Sys2Proof.Machine

variable {P : Blocks → Prop} (hP : Steady P) {b : Blocks}
include hP

theorem steady_setupTd (x : SetupUnit) (y : TdUnit) (hy : y.timerRing.length ≤ max 16 b.td.timerRing.length) (h : P b) :
    P { b with setup := x, td := y } := hP.td (b := { b with setup := x }) y (hP.setup x h) hy

theorem steady_selectSlot (n : Nat) (h : P b) : P (Blocks.selectSlot b n) := by
  unfold Blocks.selectSlot
  split
  · refine steady_setupTd hP _ _ ?_ h
    split
    · exact Nat.le_max_right _ _
    · exact Nat.zero_le _
  · exact hP.setup _ h


theorem steady_sendCommand (cmd : TesterCmd) (o : Origin) (h : P b) : P (Blocks.sendCommand b cmd o) := by
  unfold Blocks.sendCommand
  try dsimp only
  repeat' first
    | assumption
    | (with_reducible apply steady_toTester hP)
    | split
    | (with_reducible refine hP.setup _ ?_)

theorem steady_sendSetpoint (band : Band) (h : P b) : P (Blocks.sendSetpoint b band) := by
  unfold Blocks.sendSetpoint
  try dsimp only
  repeat' first
    | assumption
    | (with_reducible apply steady_modSetup hP)
    | (with_reducible apply steady_toHandler hP)

theorem steady_faultCommand (cause : FaultCause) (h : P b) : P (Blocks.faultCommand b cause) := by
  unfold Blocks.faultCommand
  try dsimp only
  repeat' first
    | assumption
    | (with_reducible apply steady_modSetup hP)
    | (with_reducible apply steady_toTester hP)
    | split

theorem steady_faultEngine (c : Ctx) (cause : FaultCause) (h : P b) : P (Blocks.faultEngine c b cause) := by
  unfold Blocks.faultEngine
  try dsimp only
  repeat' first
    | assumption
    | (with_reducible apply steady_faultCommand hP)
    | (with_reducible apply steady_raise hP)
    | (with_reducible apply steady_note hP)
    | (with_reducible apply steady_modSetup hP)
    | split

theorem steady_endWalk (c : Ctx) (lot : Nat) (h : P b) : P (Blocks.endWalk c b lot) :=
  steady_enterTest hP c lot (steady_modSetup hP _ h)

theorem steady_watchEnd (h : P b) : P (Blocks.watchEnd b) := by
  unfold Blocks.watchEnd
  split
  · exact steady_modSetup hP _ h
  · exact h

theorem steady_chainEnd (c : Ctx) (h : P b) : P (Blocks.chainEnd c b) := by
  unfold Blocks.chainEnd
  try dsimp only
  repeat' first
    | assumption
    | (with_reducible apply steady_faultEngine hP)
    | (with_reducible apply steady_sendCommand hP)
    | (with_reducible apply steady_endWalk hP)
    | (with_reducible apply steady_modSetup hP)
    | split

theorem steady_endUnheld (c : Ctx) (h : P b) : P (Blocks.endUnheld c b) := by
  unfold Blocks.endUnheld
  split
  · split
    · exact steady_chainEnd hP c h
    · exact steady_endWalk hP c _ h
  · exact h

theorem steady_loadSlot (n program : Nat) (h : P b) : P (Blocks.loadSlot b n program) := by
  unfold Blocks.loadSlot
  try dsimp only
  repeat' first
    | assumption
    | (with_reducible apply steady_sendCommand hP)
    | (with_reducible apply steady_modSetup hP)

theorem steady_beginCorrelate (c : Ctx) (r : LotRecord) (h : P b) : P (Blocks.beginCorrelate c b r) := by
  unfold Blocks.beginCorrelate
  try dsimp only
  repeat' first
    | assumption
    | (with_reducible apply steady_faultEngine hP)
    | (with_reducible apply steady_sendCommand hP)
    | split

theorem steady_beginKind (c : Ctx) (r : LotRecord) (n : Nat) (st : StepRecord) (h : P b) : P (Blocks.beginKind c b r n st).1 := by
  unfold Blocks.beginKind
  try dsimp only
  repeat' first
    | assumption
    | (with_reducible apply steady_beginCorrelate hP)
    | (with_reducible apply steady_loadSlot hP)
    | (with_reducible apply steady_sendSetpoint hP)
    | (with_reducible apply steady_sendCommand hP)
    | (with_reducible apply steady_note hP)
    | (with_reducible apply steady_modSetup hP)
    | split

theorem steady_visit (c : Ctx) (k : Nat) (pos : Option Nat) (h : P b) : P (Blocks.visit c k pos b) := by
  induction k generalizing b pos with
  | zero =>
    cases pos with
    | none => exact steady_chainEnd hP c h
    | some n => exact h
  | succ k ih =>
    cases pos with
    | none => exact steady_chainEnd hP c h
    | some n =>
      unfold Blocks.visit
      split
      · exact h
      · rename_i w r _
        have h1 := steady_modSetup hP (fun u => u.modWalk (fun w => { w with current := some n, begun := true, count := w.count + 1 })) h
        split
        · exact steady_faultEngine hP c .loop (steady_modSetup hP _ h)
        · dsimp only
          split
          · exact ih _ h1
          · split
            · exact ih _ (steady_modSetup hP _ h1)
            · split
              · exact steady_faultEngine hP c _ (steady_modSetup hP _ h1)
              · have h2 := steady_modSetup hP (fun u => u.modWalk (fun w => { w with
                  inStep := true, deadline := some (c.now + (c.stepRecord n).timeout * 1000) })) h1
                have h3 := steady_beginKind hP c r n (c.stepRecord n) h2
                split
                · rename_i heq
                  rw [heq] at h3
                  exact h3
                · rename_i heq
                  rw [heq] at h3
                  exact ih _ (steady_modSetup hP _ h3)

theorem steady_walkFrom (c : Ctx) (pos : Option Nat) (h : P b) : P (Blocks.walkFrom c b pos) := steady_visit hP c _ pos h


theorem steady_completeStep (c : Ctx) (h : P b) : P (Blocks.completeStep c b) := by
  unfold Blocks.completeStep
  try dsimp only
  repeat' first
    | assumption
    | (with_reducible apply steady_walkFrom hP)
    | (with_reducible apply steady_modSetup hP)
    | split

theorem steady_startWalk (c : Ctx) (lot : Nat) (h : P b) : P (Blocks.startWalk c b lot) := by
  unfold Blocks.startWalk
  try dsimp only
  repeat' first
    | assumption
    | (with_reducible apply steady_walkFrom hP)
    | (with_reducible apply steady_modSetup hP)
    | split

theorem steady_resumeWaiting (c : Ctx) (h : P b) : P (Blocks.resumeWaiting c b) := by
  unfold Blocks.resumeWaiting
  try dsimp only
  repeat' first
    | assumption
    | (with_reducible apply steady_walkFrom hP)
    | split

theorem steady_enterSetup (c : Ctx) (lot : Nat) (h : P b) : P (Blocks.enterSetup c b lot) := by
  unfold Blocks.enterSetup
  try dsimp only
  repeat' first
    | assumption
    | (with_reducible apply steady_startWalk hP)
    | (with_reducible apply steady_modLot hP)
    | (intro r; rfl)

theorem steady_startChoice (c : Ctx) (h : P b) : P (Blocks.startChoice c b) := by
  unfold Blocks.startChoice
  try dsimp only
  repeat' first
    | assumption
    | (with_reducible apply steady_enterSetup hP)
    | split

theorem steady_dropWalk (c : Ctx) (h : P b) : P (Blocks.dropWalk c b) := by
  unfold Blocks.dropWalk
  try dsimp only
  repeat' first
    | assumption
    | (with_reducible apply steady_modSetup hP)
    | (with_reducible apply steady_toTester hP)
    | split

end Sys2Proof.Machine
end

