-- ==== Sys2Proof/Laws/SteadyFamilyHolds.lean ====
section
/-! SUPPORT. What every rule of the blocks keeps: the family hold list. -/

namespace Sys2Proof.Machine

variable {P : Blocks → Prop} (hP : Steady P) {b : Blocks}
include hP

theorem steady_onUnheld (c : Ctx) (lot : Nat) (h : P b) : P (Blocks.onUnheld c b lot) := by
  unfold Blocks.onUnheld
  try dsimp only
  repeat' first
    | assumption
    | (with_reducible apply steady_endUnheld hP)
    | (with_reducible apply steady_clearLatch hP)
    | split

theorem steady_applyFamilyHold (c : Ctx) (lot : Nat) (h : P b) : P (Blocks.applyFamilyHold c b lot) := by
  unfold Blocks.applyFamilyHold
  try dsimp only
  repeat' first
    | assumption
    | (with_reducible apply steady_raise hP)
    | split

theorem steady_applyFamilyHolds (c : Ctx) (h : P b) : P (Blocks.applyFamilyHolds c b) := by
  unfold Blocks.applyFamilyHolds
  try dsimp only
  repeat' first
    | assumption
    | (with_reducible apply steady_applyFamilyHold hP)
    | (with_reducible apply steady_forLots hP)
    | (with_reducible refine steady_forLots _ _ (fun _ _ _ => ?_) ?_)

theorem steady_removeFamilyHold (c : Ctx) (lot : Nat) (h : P b) : P (Blocks.removeFamilyHold c b lot) := by
  unfold Blocks.removeFamilyHold
  try dsimp only
  repeat' first
    | assumption
    | (with_reducible apply steady_onUnheld hP)
    | (with_reducible apply steady_note hP)
    | (with_reducible apply steady_modLot hP)
    | (intro r; rfl)

theorem steady_endFamilyHold (c : Ctx) (lot : Nat) (h : P b) : P (Blocks.endFamilyHold c b lot) := by
  unfold Blocks.endFamilyHold
  try dsimp only
  repeat' first
    | assumption
    | (with_reducible apply steady_removeFamilyHold hP)
    | split

theorem steady_endFamilyHolds (c : Ctx) (h : P b) : P (Blocks.endFamilyHolds c b) := by
  unfold Blocks.endFamilyHolds
  try dsimp only
  repeat' first
    | assumption
    | (with_reducible apply steady_endFamilyHold hP)
    | (with_reducible apply steady_forLots hP)
    | (with_reducible refine steady_forLots _ _ (fun _ _ _ => ?_) ?_)

theorem steady_announceListed (c : Ctx) (family : Nat) (h : P b) : P (Blocks.announceListed c b family) := by
  unfold Blocks.announceListed
  try dsimp only
  repeat' first
    | assumption
    | (with_reducible apply steady_applyFamilyHolds hP)
    | (with_reducible apply steady_dropBid hP)
    | (with_reducible refine steady_foldl _ (fun _ _ _ => ?_) _ ?_)

theorem steady_announceFlag (c : Ctx) (h : P b) : P (Blocks.announceFlag c b) := by
  unfold Blocks.announceFlag
  try dsimp only
  repeat' first
    | assumption
    | (with_reducible apply steady_applyFamilyHolds hP)
    | (with_reducible apply steady_offerBack hP)
    | (with_reducible apply steady_dropBid hP)
    | (with_reducible apply steady_cancelFrames hP)
    | (with_reducible refine steady_foldl _ (fun _ _ _ => ?_) _ ?_)

theorem steady_placeRollcall (c : Ctx) (h : P b) : P (Blocks.placeRollcall c b) := by
  have h1 := steady_placeLow hP c ⟨.family, 0, .rollcall⟩ h
  unfold Blocks.placeRollcall
  split <;> rename_i heq <;> rw [heq] at h1 <;>
    exact steady_modFamily hP _ (Nat.le_max_right _ _) (Nat.le_max_right _ _) h1


theorem steady_startRollcall (c : Ctx) (h : P b) : P (Blocks.startRollcall c b) := by
  unfold Blocks.startRollcall
  try dsimp only
  repeat' first
    | assumption
    | (with_reducible apply steady_placeRollcall hP)
    | (with_reducible apply steady_modFamily hP)
    | exact Nat.le_max_right _ _
    | split

theorem steady_cursorAt (l : List FamilyEntry) (waitsFor : Option (Nat × Nat)) (h : P b) : P (Blocks.cursorAt b l waitsFor) := by
  unfold Blocks.cursorAt
  try dsimp only
  repeat' first
    | assumption
    | (with_reducible apply steady_modFamily hP)
    | exact Nat.le_max_right _ _

theorem steady_cursorOn (cu : Cursor) (h : P b) : P (Blocks.cursorOn b cu) := steady_cursorAt hP _ _ h

theorem steady_cursorLeaves (family lot : Nat) (h : P b) : P (Blocks.cursorLeaves b family lot) := by
  unfold Blocks.cursorLeaves
  try dsimp only
  repeat' first
    | assumption
    | (with_reducible apply steady_cursorAt hP)
    | (with_reducible apply steady_modFamily hP)
    | exact Nat.le_max_right _ _
    | split

theorem steady_cursorSent (family lot : Nat) (h : P b) : P (Blocks.cursorSent b family lot) := by
  unfold Blocks.cursorSent
  try dsimp only
  repeat' first
    | assumption
    | (with_reducible apply steady_cursorOn hP)
    | (with_reducible apply steady_modFamily hP)
    | exact Nat.le_max_right _ _
    | split

theorem steady_cursorCancelled (family lot : Nat) (h : P b) : P (Blocks.cursorCancelled b family lot) := by
  unfold Blocks.cursorCancelled
  try dsimp only
  repeat' first
    | assumption
    | (with_reducible apply steady_cursorOn hP)
    | (with_reducible apply steady_modFamily hP)
    | exact Nat.le_max_right _ _
    | split

theorem steady_startCursor  (h : P b) : P (Blocks.startCursor b) := by
  unfold Blocks.startCursor
  try dsimp only
  repeat' first
    | assumption
    | (with_reducible apply steady_cursorAt hP)
    | (with_reducible apply steady_modFamily hP)
    | (with_reducible apply steady_cancelFrames hP)
    | exact Nat.le_max_right _ _
    | split

theorem steady_noteEscapes (family lot raiser : Nat) (h : P b) : P (Blocks.noteEscapes b family lot raiser) := by
  unfold Blocks.noteEscapes
  try dsimp only
  repeat' first
    | assumption
    | (with_reducible apply steady_note hP)
    | (with_reducible refine steady_foldl _ (fun _ _ _ => ?_) _ ?_)

theorem steady_refuseEntry (c : Ctx) (h : P b) : P (Blocks.refuseEntry c b) := by
  unfold Blocks.refuseEntry
  try dsimp only
  repeat' first
    | assumption
    | (with_reducible apply steady_announceFlag hP)
    | (with_reducible apply steady_modFamily hP)
    | exact Nat.le_max_right _ _
    | split

theorem steady_storeEntry (c : Ctx) (e : FamilyEntry) (hg : b.family.entries.length < 16) (h : P b) :
    P (Blocks.storeEntry c b e) := by
  have h1 : P (b.modFamily (fun f => { f with entries := f.entries ++ [e] })) :=
    steady_modFamily hP _ (by simp; omega) (Nat.le_max_right _ _) h
  unfold Blocks.storeEntry
  dsimp only
  split
  · exact steady_noteEscapes hP _ _ _ h1
  · exact steady_announceListed hP c _ (steady_noteEscapes hP _ _ _ h1)


theorem steady_dropClear (family : Nat) (lot : Nat) (h : P b) : P (Blocks.dropClear b family lot) := by
  unfold Blocks.dropClear
  split
  · exact steady_cancelFrames hP _ (steady_modFamily hP _ (Nat.le_max_right _ _)
      (le_trans (List.length_filter_le _ _) (Nat.le_max_right _ _)) h)
  · exact h

omit hP in
theorem dropClear_entries (b : Blocks) (family lot : Nat) : (b.dropClear family lot).family.entries = b.family.entries := by
  unfold Blocks.dropClear
  split <;> rfl


theorem steady_makeLocalEntry (c : Ctx) (lot : Nat) (h : P b) : P (Blocks.makeLocalEntry c b lot) := by
  unfold Blocks.makeLocalEntry
  split
  · exact h
  · split
    · split
      · exact h
      · exact steady_endFamilyHold hP c _ (steady_modFamily hP _ (by simp) (Nat.le_max_right _ _) (steady_dropClear hP _ _ h))
    · split
      · rename_i hg
        exact steady_endFamilyHold hP c _ (steady_storeEntry hP c _ (by rw [dropClear_entries]; exact hg) (steady_dropClear hP _ _ h))
      · exact steady_refuseEntry hP c h


omit hP in
/-- A change of the list made before a cancel and a notice may as well be made after them. -/
theorem modFamily_comm (b : Blocks) (f g : FamilyUnit → FamilyUnit) (p : Frame → Bool) (n : Notice) :
    (((b.modFamily f).cancelFrames p).note n).modFamily g = ((b.cancelFrames p).note n).modFamily (fun u => g (f u)) := by
  unfold Blocks.note Blocks.modFamily Blocks.cancelFrames Blocks.cancelSlots
  dsimp only
  split <;> rfl

theorem steady_makeClearDue (family : Nat) (lot : Nat) (h : P b) : P (Blocks.makeClearDue b family lot) := by
  have h0 := steady_cancelFrames hP (Frame.isHoldOf family lot) h
  unfold Blocks.makeClearDue
  dsimp only
  split
  · exact h0
  · split
    · rename_i hg
      refine steady_modFamily hP _ (Nat.le_max_right _ _) ?_ h0
      have : (b.cancelFrames (Frame.isHoldOf family lot)).family.clearDue.length < 16 := hg
      simp only [List.length_append, List.length_singleton]
      omega
    · rename_i hg
      split
      · rename_i k rest heq
        rw [modFamily_comm]
        refine steady_modFamily hP _ (Nat.le_max_right _ _) ?_ (steady_note hP _ (steady_cancelFrames hP _ h0))
        simp only [Blocks.note_family, Blocks.cancelFrames_family] at heq ⊢
        rw [heq]
        simp
      · rename_i heq
        rw [heq] at hg
        exact absurd (by decide) hg


theorem steady_fillGap (c : Ctx) (h : P b) : P (Blocks.fillGap c b) := by
  unfold Blocks.fillGap
  try dsimp only
  repeat' first
    | assumption
    | (with_reducible apply steady_makeLocalEntry hP)
    | split

theorem steady_removeEntry (c : Ctx) (family lot : Nat) (h : P b) : P (Blocks.removeEntry c b family lot) := by
  unfold Blocks.removeEntry
  try dsimp only
  repeat' first
    | assumption
    | (with_reducible apply steady_fillGap hP)
    | (with_reducible apply steady_makeClearDue hP)
    | (with_reducible apply steady_cursorLeaves hP)
    | (with_reducible apply steady_startRollcall hP)
    | (with_reducible apply steady_endFamilyHolds hP)
    | (with_reducible apply steady_applyFamilyHolds hP)
    | (with_reducible apply steady_modFamily hP)
    | exact Nat.le_max_right _ _
    | split
    | (dsimp only; simp; done)
    | (refine le_trans (List.length_filter_le _ _) (Nat.le_max_right _ _))

theorem steady_endLocalEntry (c : Ctx) (family lot : Nat) (h : P b) : P (Blocks.endLocalEntry c b family lot) := by
  unfold Blocks.endLocalEntry
  try dsimp only
  repeat' first
    | assumption
    | (with_reducible apply steady_removeEntry hP)
    | split

theorem steady_raiseFinding (c : Ctx) (lot : Nat) (k : HoldKind) (trigger : Int × Int) (bins : List Nat) (h : P b) : P (Blocks.raiseFinding c b lot k trigger bins) := by
  unfold Blocks.raiseFinding
  try dsimp only
  repeat' first
    | assumption
    | (with_reducible apply steady_makeLocalEntry hP)
    | (with_reducible apply steady_raiseHold hP)
    | split

theorem steady_removeRecord (c : Ctx) (lot : Nat) (h : P b) : P (Blocks.removeRecord c b lot) := by
  unfold Blocks.removeRecord
  try dsimp only
  repeat' first
    | assumption
    | (with_reducible apply steady_endLocalEntry hP)
    | (with_reducible apply steady_dropLot hP)
    | (with_reducible apply steady_cancelFrames hP)
    | split
    | (with_reducible refine hP.custody _ ?_)

end Sys2Proof.Machine
end

