-- ==== Sys2Proof/Laws/SteadyOffers.lean ====
section
/-! SUPPORT. What every rule of the blocks keeps: the dispatch unit. -/

namespace Sys2Proof.Machine

variable {P : Blocks → Prop} (hP : Steady P) {b : Blocks}
include hP

omit hP in
/-- A bid is made only where its record finds a place (R47). -/
theorem bidCost?_guard (c : Ctx) (b : Blocks) (o : OfferFields) (own : Bool) (cost : Nat)
    (h : b.bidCost? c o own = some cost) : b.bids.length < 4 ∧ b.places < 16 := by
  unfold Blocks.bidCost? at h
  split at h
  · cases h
  · split at h
    · rename_i hc
      simp only [Bool.and_eq_true, decide_eq_true_eq] at hc
      exact ⟨hc.1.1.1.2, hc.1.1.1.1.2⟩
    · cases h

omit hP in
/-- A bid is made only where the commitments are below 8 (R6, R47). -/
theorem bidCost?_leaves_place (c : Ctx) (b : Blocks) (o : OfferFields) (own : Bool) (cost : Nat)
    (h : b.bidCost? c o own = some cost) : b.commitments < Config.commitmentLimit := by
  unfold Blocks.bidCost? at h
  split at h
  · cases h
  · split at h
    · rename_i hc
      simp only [Bool.and_eq_true, decide_eq_true_eq] at hc
      exact hc.1.1.1.1.1.2
    · cases h

omit hP in
/-- What a window is awarded to: the best bid, for a lot that is not held (R61). -/
theorem awardee?_eq_some (r : LotRecord) (o : OfferState) (x : Nat × Nat) :
    r.awardee? o = some x ↔ r.held = false ∧ o.best = some x := by
  unfold LotRecord.awardee?
  cases r.held <;> simp

theorem steady_makeBid (c : Ctx) (lot : Nat) (offerer : Nat) (family : Nat) (cost : Nat)
    (hg : b.bids.length < 4 ∧ b.places < 16) (h : P b) : P (Blocks.makeBid c b lot offerer family cost).1 := by
  have h1 := steady_placeLow hP c ⟨.dispatch, lot, .bid lot offerer cost⟩ h
  obtain ⟨l, cu, h2⟩ := placeLow_eq c b ⟨.dispatch, lot, .bid lot offerer cost⟩
  unfold Blocks.makeBid
  split <;> rename_i heq <;> rw [heq] at h1 h2 <;> dsimp only at h1 h2 ⊢
  · exact hP.bid _ h1 (by rw [h2]; exact hg.1) (by rw [h2]; exact hg.2)
  · exact h1


theorem steady_judgeOffer (c : Ctx) (src : Nat) (o : OfferFields) (h : P b) : P (Blocks.judgeOffer c b src o) := by
  unfold Blocks.judgeOffer
  dsimp only
  have h1 : P (if b.bids.any (fun r => r.lot == o.lot) then b.dropBid o.lot else b) := by
    split
    · exact steady_dropBid hP _ h
    · exact h
  split
  · exact steady_makeBid hP c _ _ _ _ (bidCost?_guard c _ _ _ _ ‹_›) h1
  · exact h1


theorem steady_offerLot (c : Ctx) (lot : Nat) (h : P b) : P (Blocks.offerLot c b lot) := by
  unfold Blocks.offerLot
  split
  · exact h
  · rename_i r _
    split
    · have h1 := steady_placeLow hP c ⟨.dispatch, lot, .offer (c.offerFields r)⟩ h
      dsimp only
      split <;> rename_i heq <;> rw [heq] at h1
      · exact steady_offerBack hP c _ h1
      · have h2 := steady_modLot hP lot (fun r => { r with
          state := .offered, deadline := some ⟨.bidWindow, c.now + c.cfg.bidWindow * 1000⟩, offer := some ⟨.pending, none, none⟩ })
          (fun _ => rfl) h1
        split
        · exact h2
        · rename_i cost hcost
          have h3 := steady_makeBid hP c lot c.own r.family cost (bidCost?_guard c _ _ _ _ hcost) h2
          split <;> rename_i heq2 <;> rw [heq2] at h3
          · exact steady_modLot hP _ _ (fun _ => rfl) h3
          · exact h3
    · exact h


theorem steady_offerLots (c : Ctx) (h : P b) : P (Blocks.offerLots c b) := by
  unfold Blocks.offerLots
  try dsimp only
  repeat' first
    | assumption
    | (with_reducible apply steady_offerLot hP)
    | (with_reducible apply steady_forLots hP)
    | (with_reducible refine steady_forLots _ _ (fun _ _ _ => ?_) ?_)

theorem steady_endOffer (lot : Nat) (h : P b) : P (Blocks.endOffer b lot) := by
  unfold Blocks.endOffer
  try dsimp only
  repeat' first
    | assumption
    | (with_reducible apply steady_dropBid hP)
    | (with_reducible apply steady_modLot hP)
    | (intro r; rfl)

theorem steady_unsuccessful (c : Ctx) (lot : Nat) (h : P b) : P (Blocks.unsuccessful c b lot) := by
  unfold Blocks.unsuccessful
  try dsimp only
  repeat' first
    | assumption
    | (with_reducible apply steady_modLot hP)
    | (with_reducible apply steady_cancelFrames hP)
    | (with_reducible apply steady_note hP)
    | (intro r; rfl)
    | split

theorem steady_closeWindow (c : Ctx) (r : LotRecord) (h : P b) : P (Blocks.closeWindow c b r) := by
  unfold Blocks.closeWindow
  try dsimp only
  repeat' first
    | assumption
    | (with_reducible apply steady_unsuccessful hP)
    | (with_reducible apply steady_endOffer hP)
    | (with_reducible apply steady_offerBack hP)
    | (with_reducible apply steady_modLot hP)
    | (with_reducible apply steady_cancelFrames hP)
    | (intro r; rfl)
    | split
    | (with_reducible refine steady_filterBids hP _ ?_)

theorem steady_judgeBid (c : Ctx) (src lot offerer cost : Nat) (h : P b) : P (Blocks.judgeBid c b src lot offerer cost) := by
  unfold Blocks.judgeBid
  try dsimp only
  repeat' first
    | assumption
    | (with_reducible apply steady_dropBid hP)
    | (with_reducible apply steady_modLot hP)
    | (intro r; rfl)
    | split



end Sys2Proof.Machine
end

