-- ==== Sys2Proof/Laws/SteadyCustody.lean ====
section
/-! SUPPORT. What every rule of the blocks keeps: the custody unit. -/

namespace Sys2Proof.Machine

variable {P : Blocks → Prop} (hP : Steady P) {b : Blocks}
include hP

theorem steady_answerDue (lot : Nat) (k : AnswerKind) (station : Nat) (h : P b) : P (Blocks.answerDue b lot k station) := by
  unfold Blocks.answerDue
  try dsimp only
  repeat' first
    | assumption
    | split
    | (with_reducible refine hP.custody _ ?_)

theorem steady_dropAnswer (lot : Nat) (k : AnswerKind) (h : P b) : P (Blocks.dropAnswer b lot k) := by
  unfold Blocks.dropAnswer
  try dsimp only
  repeat' first
    | assumption
    | (with_reducible apply steady_cancelFrames hP)
    | split
    | (with_reducible refine hP.custody _ ?_)

theorem steady_leaveAwarded (lot : Nat) (h : P b) : P (Blocks.leaveAwarded b lot) := by
  unfold Blocks.leaveAwarded
  try dsimp only
  repeat' first
    | assumption
    | (with_reducible apply steady_modLot hP)
    | (with_reducible apply steady_cancelFrames hP)
    | (intro r; rfl)
    | split
    | (with_reducible refine hP.custody _ ?_)

theorem steady_awardSent (lot : Nat) (h : P b) : P (Blocks.awardSent b lot) := by
  unfold Blocks.awardSent
  try dsimp only
  repeat' first
    | assumption
    | (with_reducible apply steady_modLot hP)
    | (intro r; rfl)
    | split
    | (with_reducible refine hP.custody _ ?_)

theorem steady_startDossier  (h : P b) : P (Blocks.startDossier b) := by
  unfold Blocks.startDossier
  try dsimp only
  repeat' first
    | assumption
    | (with_reducible apply steady_modLot hP)
    | (intro r; split <;> rfl)
    | split

theorem steady_segmentSent (lot k : Nat) (h : P b) : P (Blocks.segmentSent b lot k) := by
  unfold Blocks.segmentSent
  try dsimp only
  repeat' first
    | assumption
    | (with_reducible apply steady_modLot hP)
    | (intro r; rfl)
    | split
    | (with_reducible refine hP.custody _ ?_)

theorem steady_collectionDone (c : Ctx) (lot : Nat) (h : P b) : P (Blocks.collectionDone c b lot) := by
  unfold Blocks.collectionDone
  try dsimp only
  repeat' first
    | assumption
    | (with_reducible apply steady_answerDue hP)
    | (with_reducible apply steady_modLot hP)
    | (with_reducible apply steady_note hP)
    | (intro r; rfl)
    | split

theorem steady_takenAway (c : Ctx) (lot src : Nat) (h : P b) : P (Blocks.takenAway c b lot src) := by
  unfold Blocks.takenAway
  try dsimp only
  repeat' first
    | assumption
    | (with_reducible apply steady_endOffer hP)
    | (with_reducible apply steady_removeRecord hP)
    | (with_reducible apply steady_note hP)

theorem steady_cancelArrival (c : Ctx) (lot : Nat) (reason : CancelReason) (h : P b) : P (Blocks.cancelArrival c b lot reason) := by
  unfold Blocks.cancelArrival
  try dsimp only
  repeat' first
    | assumption
    | (with_reducible apply steady_removeRecord hP)
    | (with_reducible apply steady_note hP)

theorem steady_contested (r : LotRecord) (src : Nat) (other : Blocks → Blocks) (h : P b) (ho : P (other b)) :
    P (Blocks.contested b r src other) := by
  unfold Blocks.contested
  split
  · exact steady_answerDue hP _ _ _ h
  · exact ho


theorem steady_custodyOffer (c : Ctx) (src lot : Nat) (h : P b) : P (Blocks.custodyOffer c b src lot) := by
  unfold Blocks.custodyOffer
  try dsimp only
  repeat' first
    | assumption
    | (with_reducible apply steady_contested hP)
    | (with_reducible apply steady_cancelArrival hP)
    | (with_reducible apply steady_answerDue hP)
    | (with_reducible apply steady_raise hP)
    | split

theorem steady_custodyObject (c : Ctx) (src lot : Nat) (h : P b) : P (Blocks.custodyObject c b src lot) := by
  unfold Blocks.custodyObject
  try dsimp only
  repeat' first
    | assumption
    | (with_reducible apply steady_contested hP)
    | (with_reducible apply steady_raise hP)
    | split

theorem steady_arrivalExpired (r : LotRecord) (h : P b) : P (Blocks.arrivalExpired b r) := by
  unfold Blocks.arrivalExpired
  try dsimp only
  repeat' first
    | assumption
    | (with_reducible apply steady_dropAnswer hP)
    | (with_reducible apply steady_answerDue hP)
    | (with_reducible apply steady_modLot hP)
    | (with_reducible apply steady_note hP)
    | (intro r; rfl)

theorem steady_dropCollections (c : Ctx) (h : P b) : P (Blocks.dropCollections c b) := by
  unfold Blocks.dropCollections
  try dsimp only
  repeat' first
    | assumption
    | (with_reducible apply steady_removeRecord hP)
    | (with_reducible apply steady_forLots hP)
    | (with_reducible refine steady_forLots _ _ (fun _ _ _ => ?_) ?_)

theorem steady_dropTransfers (h : P b) : P (Blocks.dropTransfers b) := by
  unfold Blocks.dropTransfers
  refine hP.custody (b := { b with lots := _, bids := [] }) _
    (hP.bids (b := { b with lots := _ }) [] (steady_mapLots hP _ ?_ h) (Nat.zero_le _))
  intro r
  split <;> rfl


end Sys2Proof.Machine
end

