-- ==== Sys2Proof/Laws/SteadyRelease.lean ====
section
/-! SUPPORT. What every rule of the blocks keeps: the release unit and what follows every change. -/

namespace Sys2Proof.Machine

variable {P : Blocks → Prop} (hP : Steady P) {b : Blocks}
include hP

theorem steady_releaseLot (c : Ctx) (lot : Nat) (h : P b) : P (Blocks.releaseLot c b lot) := by
  unfold Blocks.releaseLot
  split
  · exact h
  · rename_i r _
    split
    · have h1 := steady_placeLow hP c ⟨.release, lot, .intent lot r.family⟩ h
      split <;> rename_i heq <;> rw [heq] at h1 <;> exact steady_modLot hP _ _ (fun _ => rfl) h1
    · exact h


theorem steady_releaseLots (c : Ctx) (h : P b) : P (Blocks.releaseLots c b) := by
  unfold Blocks.releaseLots
  try dsimp only
  repeat' first
    | assumption
    | (with_reducible apply steady_releaseLot hP)
    | (with_reducible apply steady_forLots hP)
    | (with_reducible refine steady_forLots _ _ (fun _ _ _ => ?_) ?_)

theorem steady_settle (c : Ctx) (h : P b) : P (Blocks.settle c b) := by
  unfold Blocks.settle
  dsimp only
  exact steady_pump hP c (steady_releaseLots hP c (steady_offerLots hP c (steady_startChoice hP c
    (steady_pump hP c (steady_startDossier hP (steady_watchEnd hP h))))))


theorem steady_object (lot : Nat) (reason : ObjectReason) (station : Nat) (h : P b) :
    P (Blocks.object b lot reason station) := by
  unfold Blocks.object
  split
  · exact h
  · split
    · rename_i hg
      refine hP.release _ h (Nat.le_max_right _ _) ?_
      have : b.release.objections.length < 16 := hg
      simp only [List.length_append, List.length_singleton]
      omega
    · exact steady_note hP _ h


theorem steady_judgeIntent (c : Ctx) (src lot family : Nat) (h : P b) : P (Blocks.judgeIntent c b src lot family) := by
  unfold Blocks.judgeIntent
  try dsimp only
  repeat' first
    | assumption
    | (with_reducible apply steady_object hP)
    | (with_reducible apply steady_contested hP)
    | (with_reducible apply steady_raise hP)
    | split

theorem steady_releaseObject (c : Ctx) (src lot : Nat) (reason : ObjectReason) (objected : Nat) (h : P b) : P (Blocks.releaseObject c b src lot reason objected) := by
  unfold Blocks.releaseObject
  try dsimp only
  repeat' first
    | assumption
    | (with_reducible apply steady_abandonWindow hP)
    | (with_reducible apply steady_note hP)
    | split

theorem steady_modRing (i : Nat) (f : RingEntry → RingEntry) (h : P b) : P (Blocks.modRing b i f) :=
  hP.release _ h (by simp) (Nat.le_max_right _ _)

theorem steady_placeShipped (c : Ctx) (i : Nat) (h : P b) : P (Blocks.placeShipped c b i) := by
  unfold Blocks.placeShipped
  split
  · exact h
  · rename_i e _
    have h1 := steady_placeLow hP c ⟨.release, e.lot, .shipped e.lot e.family e.good⟩ h
    split <;> rename_i heq <;> rw [heq] at h1
    · exact steady_modRing hP _ _ h1
    · exact steady_modRing hP _ _ h1


theorem steady_placeAllShipped (c : Ctx) (h : P b) : P (Blocks.placeAllShipped c b) := by
  unfold Blocks.placeAllShipped
  try dsimp only
  repeat' first
    | assumption
    | (with_reducible apply steady_placeShipped hP)
    | (with_reducible refine steady_foldl _ (fun _ _ _ => ?_) _ ?_)

theorem steady_ringPush (e : RingEntry) (h : P b) : P (Blocks.ringPush b e) := by
  unfold Blocks.ringPush
  split
  · rename_i hg
    refine hP.release _ h ?_ (Nat.le_max_right _ _)
    have : b.release.ring.length < 8 := hg
    simp only [List.length_append, List.length_singleton]
    omega
  · split
    · rename_i old rest heq
      have h1 : P { b with release := { b.release with ring := rest ++ [e] } } := by
        refine hP.release _ h ?_ (Nat.le_max_right _ _)
        simp [heq]
      dsimp only
      split
      · exact steady_cancelSlots hP _ h1
      · exact h1
    · exact hP.release _ h (by simp) (Nat.le_max_right _ _)


theorem steady_ship (c : Ctx) (r : LotRecord) (h : P b) : P (Blocks.ship c b r) := by
  unfold Blocks.ship
  try dsimp only
  repeat' first
    | assumption
    | (with_reducible apply steady_ringPush hP)
    | (with_reducible apply steady_placeShipped hP)
    | (with_reducible apply steady_removeRecord hP)
    | (with_reducible apply steady_note hP)

theorem steady_judgeShipped (c : Ctx) (src lot : Nat) (h : P b) : P (Blocks.judgeShipped c b src lot) := by
  unfold Blocks.judgeShipped
  try dsimp only
  repeat' first
    | assumption
    | (with_reducible apply steady_takenAway hP)
    | (with_reducible apply steady_raise hP)
    | (with_reducible apply steady_note hP)
    | split

theorem steady_abandonAll (h : P b) : P (Blocks.abandonAll b) := by
  unfold Blocks.abandonAll
  exact hP.release _ (steady_forLots _ _ (fun _ _ h => steady_abandonWindow hP _ _ _ h) h) (Nat.le_max_right _ _) (Nat.zero_le _)


end Sys2Proof.Machine
end

