-- ==== Sys2Proof/Laws/SteadyTouchdown.lean ====
section
/-! SUPPORT. What every rule of the blocks keeps: the touchdown controller. -/

namespace Sys2Proof.Machine

variable {P : Blocks → Prop} (hP : Steady P) {b : Blocks}
include hP

theorem steady_sendSort (cup : Nat → Cup) (h : P b) : P (Blocks.sendSort b cup) := by
  unfold Blocks.sendSort
  try dsimp only
  repeat' first
    | assumption
    | (with_reducible apply steady_toHandler hP)

theorem steady_sortTouchdown (t : Touchdown) (active : Nat → Cup) (h : P b) : P (Blocks.sortTouchdown b t active) := by
  unfold Blocks.sortTouchdown
  try dsimp only
  repeat' first
    | assumption
    | (with_reducible apply steady_sendSort hP)
    | (with_reducible apply steady_modTd hP)
    | exact Nat.le_max_right _ _

theorem steady_freeEnding (c : Ctx) (h : P b) : P (Blocks.freeEnding c b) := by
  unfold Blocks.freeEnding
  try dsimp only
  repeat' first
    | assumption
    | (with_reducible apply steady_removeRecord hP)
    | (with_reducible apply steady_toHandler hP)
    | (with_reducible apply steady_modTd hP)
    | exact Nat.le_max_right _ _
    | split

theorem steady_voidTouchdown (lot : Nat) (t : Touchdown) (move : Account → Nat → Account) (h : P b) : P (Blocks.voidTouchdown b lot t move) := by
  unfold Blocks.voidTouchdown
  try dsimp only
  repeat' first
    | assumption
    | (with_reducible apply steady_sortTouchdown hP)
    | (with_reducible apply steady_modLot hP)
    | (intro r; rfl)

theorem steady_abortTouchdown (c : Ctx) (t : Touchdown) (h : P b) : P (Blocks.abortTouchdown c b t) := by
  unfold Blocks.abortTouchdown
  try dsimp only
  repeat' first
    | assumption
    | (with_reducible apply steady_voidTouchdown hP)
    | (with_reducible apply steady_freeEnding hP)
    | (with_reducible apply steady_sortTouchdown hP)
    | split

theorem steady_abortTesting (c : Ctx) (h : P b) : P (Blocks.abortTesting c b) := by
  unfold Blocks.abortTesting
  try dsimp only
  repeat' first
    | assumption
    | (with_reducible apply steady_abortTouchdown hP)
    | split

theorem steady_orphanTouchdown (sites : List Nat) (h : P b) : P (Blocks.orphanTouchdown b sites) := by
  unfold Blocks.orphanTouchdown
  try dsimp only
  repeat' first
    | assumption
    | (with_reducible apply steady_sortTouchdown hP)
    | (with_reducible apply steady_note hP)

theorem steady_proceed (c : Ctx) (r : LotRecord) (t : Touchdown) (h : P b) : P (Blocks.proceed c b r t) := by
  unfold Blocks.proceed
  try dsimp only
  repeat' first
    | assumption
    | (with_reducible apply steady_sortTouchdown hP)
    | (with_reducible apply steady_startTouchdown hP)
    | (with_reducible apply steady_modTd hP)
    | exact Nat.le_max_right _ _
    | split

theorem steady_noteOrphans (sites : List Nat) (h : P b) : P (Blocks.noteOrphans b sites) := by
  unfold Blocks.noteOrphans
  try dsimp only
  repeat' first
    | assumption
    | (with_reducible apply steady_note hP)
    | split

theorem steady_excessCheck (c : Ctx) (lot : Nat) (h : P b) : P (Blocks.excessCheck c b lot) := by
  unfold Blocks.excessCheck
  try dsimp only
  repeat' first
    | assumption
    | (with_reducible apply steady_raiseRecon hP)
    | (with_reducible apply steady_modLot hP)
    | (intro r; rfl)
    | split

theorem steady_readyMain (c : Ctx) (r : LotRecord) (sites : List Nat) (h : P b) : P (Blocks.readyMain c b r sites) := by
  unfold Blocks.readyMain
  try dsimp only
  repeat' first
    | assumption
    | (with_reducible apply steady_excessCheck hP)
    | (with_reducible apply steady_noteOrphans hP)
    | (with_reducible apply steady_proceed hP)
    | (with_reducible apply steady_modLot hP)
    | (intro r; rfl)

theorem steady_readyVoidPass (c : Ctx) (r : LotRecord) (sites : List Nat) (h : P b) : P (Blocks.readyVoidPass c b r sites) := by
  unfold Blocks.readyVoidPass
  try dsimp only
  repeat' first
    | assumption
    | (with_reducible apply steady_noteOrphans hP)
    | (with_reducible apply steady_proceed hP)
    | (with_reducible apply steady_modLot hP)
    | (intro r; rfl)

theorem steady_ready (c : Ctx) (sites : List Nat) (h : P b) : P (Blocks.ready c b sites) := by
  unfold Blocks.ready
  try dsimp only
  repeat' first
    | assumption
    | (with_reducible apply steady_readyVoidPass hP)
    | (with_reducible apply steady_readyMain hP)
    | (with_reducible apply steady_orphanTouchdown hP)
    | (with_reducible apply steady_note hP)
    | split

theorem steady_holdSite (lot s : Nat) (reason : SiteReason) (values : List Nat) (h : P b) : P (Blocks.holdSite b lot s reason values) := by
  unfold Blocks.holdSite
  try dsimp only
  repeat' first
    | assumption
    | (with_reducible apply steady_note hP)
    | (with_reducible apply steady_modTd hP)
    | exact Nat.le_max_right _ _
    | split

theorem steady_checkRuns (lot : Nat) (rec_ : Recipe) (a : Account) (h : P b) : P (Blocks.checkRuns b lot rec_ a) := by
  unfold Blocks.checkRuns
  try dsimp only
  repeat' first
    | assumption
    | (with_reducible apply steady_holdSite hP)
    | (with_reducible refine steady_foldl _ (fun _ _ _ => ?_) _ ?_)
    | split

theorem steady_checkSpread (lot : Nat) (rec_ : Recipe) (a : Account) (h : P b) : P (Blocks.checkSpread b lot rec_ a) := by
  unfold Blocks.checkSpread
  try dsimp only
  repeat' first
    | assumption
    | (with_reducible apply steady_holdSite hP)
    | (with_reducible refine steady_foldl _ (fun _ _ _ => ?_) _ ?_)
    | split

theorem steady_checkYield (c : Ctx) (r : LotRecord) (rec_ : Recipe) (a : Account) (h : P b) : P (Blocks.checkYield c b r rec_ a) := by
  unfold Blocks.checkYield
  try dsimp only
  repeat' first
    | assumption
    | (with_reducible apply steady_raiseFinding hP)
    | split

theorem steady_checkBin (c : Ctx) (lot : Nat) (a : Account) (l : BinLimit) (h : P b) : P (Blocks.checkBin c lot a b l) := by
  unfold Blocks.checkBin
  try dsimp only
  repeat' first
    | assumption
    | (with_reducible apply steady_raiseFinding hP)
    | (with_reducible apply steady_modLot hP)
    | (with_reducible apply steady_note hP)
    | (intro r; rfl)
    | split

theorem steady_checkBins (c : Ctx) (lot : Nat) (rec_ : Recipe) (a : Account) (h : P b) : P (Blocks.checkBins c b lot rec_ a) := by
  unfold Blocks.checkBins
  try dsimp only
  repeat' first
    | assumption
    | (with_reducible apply steady_checkBin hP)
    | (with_reducible refine steady_foldl _ (fun _ _ _ => ?_) _ ?_)
    | split

theorem steady_checkSites (c : Ctx) (lot : Nat) (h : P b) : P (Blocks.checkSites c b lot) := by
  unfold Blocks.checkSites
  try dsimp only
  repeat' first
    | assumption
    | (with_reducible apply steady_raiseSites hP)
    | split

theorem steady_evaluate (c : Ctx) (lot : Nat) (h : P b) : P (Blocks.evaluate c b lot) := by
  unfold Blocks.evaluate
  try dsimp only
  repeat' first
    | assumption
    | (with_reducible apply steady_checkSites hP)
    | (with_reducible apply steady_checkBins hP)
    | (with_reducible apply steady_checkYield hP)
    | (with_reducible apply steady_checkSpread hP)
    | (with_reducible apply steady_checkRuns hP)
    | split

omit hP in
/-- The timer ring keeps the newest 16 samples (R128). -/
theorem sample_le (u : TdUnit) (busy : Nat) : (u.sample busy).timerRing.length ≤ max 16 u.timerRing.length := by
  unfold TdUnit.sample
  split
  · exact Nat.le_max_right _ _
  · simp [Config.timerCapacity]
    omega

theorem steady_result (c : Ctx) (sequence : Nat) (bins : List Nat) (h : P b) : P (Blocks.result c b sequence bins) := by
  unfold Blocks.result
  try dsimp only
  repeat' first
    | assumption
    | (with_reducible apply steady_evaluate hP)
    | (with_reducible apply steady_freeEnding hP)
    | (with_reducible apply steady_sortTouchdown hP)
    | (with_reducible apply steady_modLot hP)
    | (with_reducible apply steady_modTd hP)
    | exact Nat.le_max_right _ _
    | (intro r; rfl)
    | exact sample_le _ _
    | split

theorem steady_closeInsertion (c : Ctx) (lot : Nat) (h : P b) : P (Blocks.closeInsertion c b lot) := by
  unfold Blocks.closeInsertion
  try dsimp only
  repeat' first
    | assumption
    | (with_reducible apply steady_removeRecord hP)
    | (with_reducible apply steady_modLot hP)
    | (with_reducible apply steady_toHandler hP)
    | (with_reducible apply steady_note hP)
    | (intro r; rfl)
    | split

theorem steady_reconcile (c : Ctx) (lot : Nat) (h : P b) : P (Blocks.reconcile c b lot) := by
  unfold Blocks.reconcile
  try dsimp only
  repeat' first
    | assumption
    | (with_reducible apply steady_closeInsertion hP)
    | (with_reducible apply steady_raiseRecon hP)
    | split

theorem steady_lotEmptyTaken (c : Ctx) (h : P b) : P (Blocks.lotEmptyTaken c b) := by
  unfold Blocks.lotEmptyTaken
  try dsimp only
  repeat' first
    | assumption
    | (with_reducible apply steady_reconcile hP)
    | (with_reducible apply steady_modLot hP)
    | (with_reducible apply steady_note hP)
    | (intro r; rfl)
    | split

theorem steady_lotEmpty (c : Ctx) (h : P b) : P (Blocks.lotEmpty c b) := by
  unfold Blocks.lotEmpty
  try dsimp only
  repeat' first
    | assumption
    | (with_reducible apply steady_lotEmptyTaken hP)
    | (with_reducible apply steady_modTd hP)
    | exact Nat.le_max_right _ _
    | split

theorem steady_endTouchdown (c : Ctx) (t : Touchdown) (h : P b) : P (Blocks.endTouchdown c b t) := by
  unfold Blocks.endTouchdown
  try dsimp only
  repeat' first
    | assumption
    | (with_reducible apply steady_lotEmptyTaken hP)
    | (with_reducible apply steady_note hP)
    | (with_reducible apply steady_modTd hP)
    | exact Nat.le_max_right _ _
    | split

theorem steady_sortedTaken (c : Ctx) (h : P b) : P (Blocks.sortedTaken c b) := by
  unfold Blocks.sortedTaken
  try dsimp only
  repeat' first
    | assumption
    | (with_reducible apply steady_endTouchdown hP)
    | split

theorem steady_kitInTest (c : Ctx) (old new : Nat) (h : P b) : P (Blocks.kitInTest c b old new) := by
  unfold Blocks.kitInTest
  try dsimp only
  repeat' first
    | assumption
    | (with_reducible apply steady_raise hP)
    | (with_reducible apply steady_note hP)
    | split

theorem steady_tempLostInTest (c : Ctx) (h : P b) : P (Blocks.tempLostInTest c b) := by
  unfold Blocks.tempLostInTest
  try dsimp only
  repeat' first
    | assumption
    | (with_reducible apply steady_abortTesting hP)
    | (with_reducible apply steady_raise hP)
    | split

end Sys2Proof.Machine
end

