-- ==== Sys2Proof/Laws/SteadyDispositions.lean ====
section
/-! SUPPORT. What every rule of the blocks keeps: dispositions. -/

namespace Sys2Proof.Machine

variable {P : Blocks → Prop} (hP : Steady P) {b : Blocks}
include hP

theorem steady_resumeThermal (c : Ctx) (lot : Nat) (h : P b) : P (Blocks.resumeThermal c b lot) := by
  unfold Blocks.resumeThermal
  try dsimp only
  repeat' first
    | assumption
    | (with_reducible apply steady_voidTouchdown hP)
    | (with_reducible apply steady_startWalk hP)
    | (with_reducible apply steady_modLot hP)
    | (intro r; rfl)
    | split

theorem steady_resumeEffects (c : Ctx) (r : LotRecord) (k : HoldKind) (h : P b) : P (Blocks.resumeEffects c b r k) := by
  unfold Blocks.resumeEffects
  try dsimp only
  repeat' first
    | assumption
    | (with_reducible apply steady_resumeThermal hP)
    | (with_reducible apply steady_startWalk hP)
    | (with_reducible apply steady_modLot hP)
    | (intro r; rfl)
    | split

theorem steady_applyResume (c : Ctx) (r : LotRecord) (k : HoldKind) (d : Disposition) (h : P b) : P (Blocks.applyResume c b r k d) := by
  unfold Blocks.applyResume
  try dsimp only
  repeat' first
    | assumption
    | (with_reducible apply steady_resumeEffects hP)
    | (with_reducible apply steady_closeInsertion hP)
    | (with_reducible apply steady_endLocalEntry hP)
    | (with_reducible apply steady_onUnheld hP)
    | (with_reducible apply steady_modLot hP)
    | (intro r; rfl)
    | split

theorem steady_scrapTouchdown (lot : Nat) (h : P b) : P (Blocks.scrapTouchdown b lot) := by
  unfold Blocks.scrapTouchdown
  try dsimp only
  repeat' first
    | assumption
    | (with_reducible apply steady_sortTouchdown hP)
    | (with_reducible apply steady_modLot hP)
    | (intro r; rfl)
    | split

theorem steady_scrapState (c : Ctx) (r : LotRecord) (h : P b) : P (Blocks.scrapState c b r) := by
  unfold Blocks.scrapState
  try dsimp only
  repeat' first
    | assumption
    | (with_reducible apply steady_endOffer hP)
    | (with_reducible apply steady_dropWalk hP)
    | (with_reducible apply steady_cancelFrames hP)
    | split

theorem steady_scrap (c : Ctx) (r : LotRecord) (k : HoldKind) (h : P b) : P (Blocks.scrap c b r k) := by
  unfold Blocks.scrap
  try dsimp only
  repeat' first
    | assumption
    | (with_reducible apply steady_scrapState hP)
    | (with_reducible apply steady_scrapTouchdown hP)
    | (with_reducible apply steady_freeEnding hP)
    | (with_reducible apply steady_removeRecord hP)
    | (with_reducible apply steady_endLocalEntry hP)
    | (with_reducible apply steady_modLot hP)
    | (with_reducible apply steady_cancelFrames hP)
    | (with_reducible apply steady_note hP)
    | (intro r; rfl)
    | split
    | (with_reducible refine hP.custody _ ?_)

theorem steady_applyDisposition (c : Ctx) (r : LotRecord) (k : HoldKind) (d : Disposition) (by_ : Requester) (h : P b) : P (Blocks.applyDisposition c b r k d by_) := by
  unfold Blocks.applyDisposition
  try dsimp only
  repeat' first
    | assumption
    | (with_reducible apply steady_scrap hP)
    | (with_reducible apply steady_applyResume hP)
    | (with_reducible apply steady_note hP)
    | split

theorem steady_dispose (c : Ctx) (r : LotRecord) (k : HoldKind) (d : Disposition) (by_ : Requester) (h : P b) : P (Blocks.dispose c b r k d by_).1 := by
  unfold Blocks.dispose
  try dsimp only
  repeat' first
    | assumption
    | (with_reducible apply steady_applyDisposition hP)
    | split

theorem steady_disposeRemote (c : Ctx) (lot : Nat) (k : HoldKind) (d : Disposition) (h : P b) :
    P (Blocks.disposeRemote c b lot k d).1 := by
  have h1 := steady_placeLow hP c ⟨.evaluator, lot, .dispose lot (holdKindCode k) (dispositionCode d) c.own⟩ h
  unfold Blocks.disposeRemote
  split
  · exact h
  · split
    · exact h
    · split <;> rename_i heq <;> rw [heq] at h1
      · exact hP.remote _ h1
      · exact h1


theorem steady_disposeHeard (c : Ctx) (src lot : Nat) (k : HoldKind) (d : Disposition) (h : P b) : P (Blocks.disposeHeard c b src lot k d) := by
  unfold Blocks.disposeHeard
  try dsimp only
  repeat' first
    | assumption
    | (with_reducible apply steady_dispose hP)
    | (with_reducible apply steady_placeLow hP)
    | split

theorem steady_disposedHeard (c : Ctx) (lot : Nat) (k : HoldKind) (code : ReplyCode) (requester : Nat) (h : P b) : P (Blocks.disposedHeard c b lot k code requester) := by
  unfold Blocks.disposedHeard
  try dsimp only
  repeat' first
    | assumption
    | (with_reducible apply steady_note hP)
    | split
    | (with_reducible refine hP.remote _ ?_)

end Sys2Proof.Machine
end

