-- ==== Sys2Proof/Laws/SteadyLink.lean ====
section
/-! SUPPORT. What every rule of the blocks keeps: the link controller. -/

namespace Sys2Proof.Machine

variable {P : Blocks → Prop} (hP : Steady P) {b : Blocks}
include hP

theorem steady_enterQuiet (c : Ctx) (h : P b) : P (Blocks.enterQuiet c b) := by
  unfold Blocks.enterQuiet
  refine steady_foldl _ (fun _ _ h => steady_toldUnsent hP c _ h) _ (hP.thin _ h (by simp) ?_)
  intro hn x hx
  obtain ⟨y, hy, rfl⟩ := List.mem_map.1 hx
  rw [hn y hy]


theorem steady_unplaceRing (h : P b) : P (Blocks.unplaceRing b) := steady_mapRing hP _ h

omit hP in
theorem steady_withdraw (hE : SteadyEvents P) (c : Ctx) (h : P b) : P (Blocks.withdraw c b) := by
  have hP := hE.toSteady
  unfold Blocks.withdraw
  dsimp only
  have h1 : P (b.modLink LinkCtl.emptied).unplaceRing := steady_unplaceRing hP (hE.link _ h (.inr rfl))
  have h2 := steady_abandonAll hP (steady_modFamily hP FamilyUnit.endRollcall (Nat.le_max_right _ _) (Nat.le_max_right _ _)
    (steady_dropCollections hP c (steady_dropTransfers hP h1)))
  split
  · exact steady_remoteNotSent hP h2
  · exact h2


omit hP in
theorem steady_deriveLink (hE : SteadyEvents P) (c : Ctx) (h : P b) : P (Blocks.deriveLink c b) := by
  have hP := hE.toSteady
  unfold Blocks.deriveLink
  dsimp only
  split
  · exact h
  · have h1 := fun st (x : LinkCtl) (hx : x.slots = b.link.slots) (n : Notice) =>
      steady_note hP n (b := { b with link := { x with state := st } }) (hE.link _ h (.inl (by rw [hx])))
    split
    · exact steady_enterQuiet hP c (h1 _ b.link rfl _)
    · exact steady_withdraw hE c (h1 _ b.link rfl _)
    · exact h1 _ b.link rfl _


omit hP in
theorem steady_reception (hE : SteadyEvents P) (c : Ctx) (h : P b) : P (Blocks.reception c b) :=
  steady_deriveLink hE c (hE.link { b.link.drive .acknowledge with rxErr := b.link.rxErr - 1 } h (.inl rfl))


omit hP in
theorem steady_receiveError (hE : SteadyEvents P) (c : Ctx) (h : P b) : P (Blocks.receiveError c b) :=
  steady_deriveLink hE c (hE.link { b.link with
    signals := b.link.signals ++ b.link.errorFrameSignals c.now, rxErr := min 255 (b.link.rxErr + 1) } h (.inl rfl))


theorem steady_clashCheck (c : Ctx) (cls kind src : Nat) (h : P b) : P (Blocks.clashCheck c b cls kind src) := by
  unfold Blocks.clashCheck
  split
  · exact steady_note hP _ (hP.clash h)
  · exact h


theorem steady_unsettleFamilies (c : Ctx) (h : P b) : P (Blocks.unsettleFamilies c b) :=
  steady_startRollcall hP c (steady_pump hP c (steady_announceFlag hP c
    (steady_modFamily hP FamilyUnit.unsettle (by simp [FamilyUnit.unsettle]) (Nat.le_max_right _ _) h)))


omit hP in
theorem steady_rejoin (hE : SteadyEvents P) (c : Ctx) (h : P b) : P (Blocks.rejoin c b) := by
  have hP := hE.toSteady
  unfold Blocks.rejoin
  dsimp only
  refine steady_placeAllShipped hP c (steady_unsettleFamilies hP c (steady_note hP _ (hE.link _ h (.inl rfl))))


omit hP in
theorem steady_joinLine (hE : SteadyEvents P) (c : Ctx) (h : P b) : P (Blocks.joinLine c b) := by
  have hP := hE.toSteady
  have h1 : P (b.modLink (fun l => { l with joined := true })) := hE.link _ h (.inl rfl)
  unfold Blocks.joinLine
  dsimp only
  split
  · exact h
  · split
    · exact steady_placeRollcall hP c h1
    · exact h1


theorem steady_offerSent (c : Ctx) (lot : Nat) (h : P b) : P (Blocks.offerSent c b lot) := by
  unfold Blocks.offerSent
  refine steady_modLot hP _ _ ?_ h
  intro r
  repeat' split
  all_goals rfl


theorem steady_bidSent (c : Ctx) (lot : Nat) (h : P b) : P (Blocks.bidSent c b lot) := by
  unfold Blocks.bidSent
  refine steady_modLot hP _ _ ?_ (steady_mapBids hP _ h)
  intro r
  repeat' split
  all_goals rfl


theorem steady_answerSent (c : Ctx) (f : Frame) (h : P b) : P (Blocks.answerSent c b f) := by
  unfold Blocks.answerSent
  try dsimp only
  repeat' first
    | assumption
    | (with_reducible apply steady_removeRecord hP)
    | split
    | (with_reducible refine hP.custody _ ?_)

theorem steady_toldSent (c : Ctx) (e : SlotEntry) (h : P b) : P (Blocks.toldSent c b e) := by
  unfold Blocks.toldSent
  dsimp only
  split
  · exact steady_answerSent hP c _ h
  · split
    · exact steady_offerSent hP c _ h
    · split
      · exact h
      · exact steady_bidSent hP c _ h
    · split
      · exact h
      · exact steady_awardSent hP _ h
    · split
      · exact h
      · exact steady_segmentSent hP _ _ h
    · exact steady_cursorSent hP _ _ (steady_modFamily hP _ (by simp) (Nat.le_max_right _ _) h)
    · exact steady_modFamily hP _ (Nat.le_max_right _ _) (le_trans (List.length_filter_le _ _) (Nat.le_max_right _ _)) h
    · exact hP.release _ h (Nat.le_max_right _ _) (le_trans (List.length_filter_le _ _) (Nat.le_max_right _ _))
    · split
      · exact steady_modFamily hP _ (Nat.le_max_right _ _) (Nat.le_max_right _ _) h
      · exact h
    · refine steady_modLot hP _ _ ?_ h
      intro r
      split <;> rfl
    · exact steady_mapRing hP _ h
    · exact h


theorem steady_toldCancelled (f : Frame) (h : P b) : P (Blocks.toldCancelled b f) := by
  unfold Blocks.toldCancelled
  try dsimp only
  repeat' first
    | assumption
    | (with_reducible apply steady_cursorCancelled hP)
    | split

omit hP in
/-- The frame on the line stands in a slot. -/
theorem onWire?_slot (l : LinkCtl) (i : Nat) (e : SlotEntry) (h : l.onWire? = some (i, e)) : some e ∈ l.slots := by
  unfold LinkCtl.onWire? at h
  obtain ⟨p, hp, hf⟩ := List.exists_of_findSome?_eq_some h
  obtain ⟨x, j⟩ := p
  cases x with
  | none => simp at hf
  | some e' =>
    simp only [Option.bind_some] at hf
    split at hf
    · simp only [Option.some.injEq, Prod.mk.injEq] at hf
      rw [← hf.2]
      have := List.mem_zipIdx hp
      simp only [this.2.2]
      exact List.getElem_mem _
    · cases hf

theorem steady_setSlot (i : Nat) (x : Option SlotEntry) (hx : x = none ∨ ∃ e, some e ∈ b.link.slots) (h : P b) :
    P (b.modLink (fun l => l.setSlot i x)) := by
  refine hP.thin _ h (by simp) ?_
  intro hn y hy
  rcases hx with rfl | ⟨e, he⟩
  · rcases List.mem_or_eq_of_mem_set hy with hy | hy
    · exact hn y hy
    · exact hy
  · exact absurd (hn _ he) (by simp)

theorem steady_attemptFailed (c : Ctx) (h : P b) : P (Blocks.attemptFailed c b) := by
  unfold Blocks.attemptFailed
  split
  · exact h
  · rename_i i e heq
    have h1 := steady_setSlot hP i none (.inl rfl) h
    split
    · exact steady_toldCancelled hP _ h1
    · split
      · exact steady_toldUnsent hP c _ h1
      · exact steady_setSlot hP i _ (.inr ⟨e, onWire?_slot _ _ _ heq⟩) h


omit hP in
theorem steady_attemptSent (hE : SteadyEvents P) (c : Ctx) (h : P b) : P (Blocks.attemptSent c b) := by
  have hP := hE.toSteady
  unfold Blocks.attemptSent
  split
  · exact h
  · exact steady_toldSent hP c _ (steady_deriveLink hE c (hE.link _ h (.inl (by simp [LinkCtl.setSlot]))))


omit hP in
theorem steady_attemptError (hE : SteadyEvents P) (c : Ctx) (onlyMissingAck : Bool) (h : P b) :
    P (Blocks.attemptError c b onlyMissingAck) := by
  have hP := hE.toSteady
  unfold Blocks.attemptError
  split
  · exact h
  · exact steady_attemptFailed hP c (steady_deriveLink hE c (hE.link _ h (.inl rfl)))


end Sys2Proof.Machine
end

