-- ==== Sys2Proof/Laws/SteadyFramesHeard.lean ====
section
/-! SUPPORT. What every rule of the blocks keeps: the frames heard. -/

namespace Sys2Proof.Machine

variable {P : Blocks → Prop} (hP : Steady P) {b : Blocks}
include hP

theorem steady_holdHeard (c : Ctx) (family lot raiser : Nat) (h : P b) : P (Blocks.holdHeard c b family lot raiser) := by
  unfold Blocks.holdHeard
  try dsimp only
  repeat' first
    | assumption
    | (with_reducible apply steady_storeEntry hP)
    | (with_reducible apply steady_refuseEntry hP)
    | (with_reducible apply steady_modFamily hP)
    | exact Nat.le_max_right _ _
    | split
    | simp

theorem steady_clearHeard (c : Ctx) (family lot : Nat) (h : P b) : P (Blocks.clearHeard c b family lot) := by
  unfold Blocks.clearHeard
  try dsimp only
  repeat' first
    | assumption
    | (with_reducible apply steady_removeEntry hP)
    | split

theorem steady_acceptHeard (c : Ctx) (src lot offerer : Nat) (h : P b) : P (Blocks.acceptHeard c b src lot offerer) := by
  unfold Blocks.acceptHeard
  try dsimp only
  repeat' first
    | assumption
    | (with_reducible apply steady_leaveAwarded hP)
    | (with_reducible apply steady_modLot hP)
    | (with_reducible apply steady_note hP)
    | (intro r; rfl)
    | split

theorem steady_takeHeard (c : Ctx) (src lot offerer : Nat) (h : P b) : P (Blocks.takeHeard c b src lot offerer) := by
  unfold Blocks.takeHeard
  try dsimp only
  repeat' first
    | assumption
    | (with_reducible apply steady_takenAway hP)
    | split

theorem steady_declineHeard (c : Ctx) (src lot offerer : Nat) (h : P b) : P (Blocks.declineHeard c b src lot offerer) := by
  unfold Blocks.declineHeard
  try dsimp only
  repeat' first
    | assumption
    | (with_reducible apply steady_unsuccessful hP)
    | (with_reducible apply steady_note hP)
    | split

theorem steady_recallHeard (c : Ctx) (src lot winner : Nat) (h : P b) : P (Blocks.recallHeard c b src lot winner) := by
  unfold Blocks.recallHeard
  try dsimp only
  repeat' first
    | assumption
    | (with_reducible apply steady_cancelArrival hP)
    | (with_reducible apply steady_answerDue hP)
    | split

theorem steady_offerHeard (c : Ctx) (src : Nat) (o : OfferFields) (h : P b) : P (Blocks.offerHeard c b src o) := by
  unfold Blocks.offerHeard
  try dsimp only
  repeat' first
    | assumption
    | (with_reducible apply steady_custodyOffer hP)
    | (with_reducible apply steady_judgeOffer hP)

theorem steady_objectHeard (c : Ctx) (src lot : Nat) (reason : ObjectReason) (objected : Nat) (h : P b) : P (Blocks.objectHeard c b src lot reason objected) := by
  unfold Blocks.objectHeard
  try dsimp only
  repeat' first
    | assumption
    | (with_reducible apply steady_releaseObject hP)
    | (with_reducible apply steady_custodyObject hP)
    | split

end Sys2Proof.Machine
end

