-- ==== Sys2Proof/Laws/SteadyDeadlines.lean ====
section
/-! SUPPORT. What every rule of the blocks keeps: the expiries. -/

namespace Sys2Proof.Machine

variable {P : Blocks → Prop} (hP : Steady P) {b : Blocks}
include hP

omit hP in
theorem steady_onLot (lot : Nat) (f : Blocks → LotRecord → Blocks) (hf : ∀ b r, P b → P (f b r)) (h : P b) :
    P (Blocks.onLot b lot f) := by
  unfold Blocks.onLot
  split
  · exact hf _ _ h
  · exact h


theorem steady_closeRelease (c : Ctx) (r : LotRecord) (h : P b) : P (Blocks.closeRelease c b r) := by
  unfold Blocks.closeRelease
  try dsimp only
  repeat' first
    | assumption
    | (with_reducible apply steady_ship hP)
    | (with_reducible apply steady_abandonWindow hP)
    | split

theorem steady_staleEntries  (h : P b) : P (Blocks.staleEntries b) := by
  unfold Blocks.staleEntries
  try dsimp only
  repeat' first
    | assumption
    | (with_reducible apply steady_modFamily hP)
    | (with_reducible apply steady_note hP)
    | (with_reducible refine steady_foldl _ (fun _ _ _ => ?_) _ ?_)
    | exact Nat.le_max_right _ _
    | split
    | simp

theorem steady_rollcallEnds (c : Ctx) (h : P b) : P (Blocks.rollcallEnds c b) := by
  unfold Blocks.rollcallEnds
  try dsimp only
  repeat' first
    | assumption
    | (with_reducible apply steady_staleEntries hP)
    | (with_reducible apply steady_startRollcall hP)
    | (with_reducible apply steady_endFamilyHolds hP)
    | (with_reducible apply steady_modFamily hP)
    | exact Nat.le_max_right _ _
    | split

theorem steady_remoteTimeout  (h : P b) : P (Blocks.remoteTimeout b) := by
  unfold Blocks.remoteTimeout
  try dsimp only
  repeat' first
    | assumption
    | (with_reducible apply steady_cancelSlots hP)
    | (with_reducible apply steady_note hP)
    | split
    | (with_reducible refine hP.remote _ ?_)

end Sys2Proof.Machine
end

