-- ==== Sys2Proof/Laws/SteadySetupEvents.lean ====
section
/-! SUPPORT. What every rule of the blocks keeps: the events of the setup. -/

namespace Sys2Proof.Machine

variable {P : Blocks → Prop} (hP : Steady P) {b : Blocks}
include hP

theorem steady_operatorEnded (c : Ctx) (n : Nat) (h : P b) : P (Blocks.operatorEnded c b n) := by
  unfold Blocks.operatorEnded
  try dsimp only
  repeat' first
    | assumption
    | (with_reducible apply steady_resumeWaiting hP)
    | (with_reducible apply steady_note hP)

theorem steady_afterAnswer (c : Ctx) (go : Blocks → Blocks) (hg : ∀ b, P b → P (go b)) (h : P b) :
    P (Blocks.afterAnswer c b go) := by
  unfold Blocks.afterAnswer
  split
  · exact steady_faultEngine hP c _ h
  · exact hg _ h


theorem steady_loadedAnswer (c : Ctx) (n : Nat) (h : P b) : P (Blocks.loadedAnswer c b n) := by
  unfold Blocks.loadedAnswer
  split
  · split
    · exact h
    · dsimp only
      split
      · exact steady_operatorEnded hP c _ (steady_modSetup hP _ h)
      · exact steady_afterAnswer hP c _ (fun _ h => steady_completeStep hP c h) (steady_modSetup hP _ h)
  · exact h


theorem steady_loadFailedAnswer (c : Ctx) (n : Nat) (h : P b) : P (Blocks.loadFailedAnswer c b n) := by
  unfold Blocks.loadFailedAnswer
  try dsimp only
  repeat' first
    | assumption
    | (with_reducible apply steady_operatorEnded hP)
    | (with_reducible apply steady_faultEngine hP)
    | (with_reducible apply steady_modSetup hP)
    | split



theorem steady_loadEvicted (c : Ctx) (n : Nat) (h : P b) : P (Blocks.loadEvicted c n b) := by
  unfold Blocks.loadEvicted
  split
  · exact steady_loadSlot hP _ _ h
  · exact h

theorem steady_evictedAnswer (c : Ctx) (n : Nat) (h : P b) : P (Blocks.evictedAnswer c b n) := by
  unfold Blocks.evictedAnswer
  split
  · split
    · exact steady_modSetup hP _ h
    · dsimp only
      split
      · exact steady_operatorEnded hP c _ (steady_modSetup hP _ h)
      · exact steady_afterAnswer hP c _ (fun _ h => steady_loadEvicted hP c n h) (steady_modSetup hP _ h)
  · exact steady_modSetup hP _ h


theorem steady_chainEndSelected (c : Ctx) (h : P b) : P (Blocks.chainEndSelected c b) := by
  unfold Blocks.chainEndSelected
  try dsimp only
  repeat' first
    | assumption
    | (with_reducible apply steady_endWalk hP)
    | (with_reducible apply steady_modSetup hP)
    | split

theorem steady_afterSelected (c : Ctx) (o : Origin) (ok : Bool) (h : P b) : P (Blocks.afterSelected c b o ok) := by
  unfold Blocks.afterSelected
  try dsimp only
  repeat' first
    | assumption
    | (with_reducible apply steady_chainEndSelected hP)
    | (with_reducible apply steady_chainEnd hP)
    | (with_reducible apply steady_faultEngine hP)
    | (with_reducible apply steady_sendCommand hP)
    | split

theorem steady_selectedAnswer (c : Ctx) (n : Nat) (h : P b) : P (Blocks.selectedAnswer c b n) := by
  unfold Blocks.selectedAnswer
  try dsimp only
  repeat' first
    | assumption
    | (with_reducible apply steady_afterSelected hP)
    | (with_reducible apply steady_selectSlot hP)
    | (with_reducible apply steady_modSetup hP)
    | split

theorem steady_checkPassAnswer (c : Ctx) (h : P b) : P (Blocks.checkPassAnswer c b) := by
  unfold Blocks.checkPassAnswer
  try dsimp only
  repeat' first
    | assumption
    | (with_reducible apply steady_completeStep hP)
    | (with_reducible apply steady_modSetup hP)
    | split

theorem steady_checkFailAnswer (c : Ctx) (h : P b) : P (Blocks.checkFailAnswer c b) := by
  unfold Blocks.checkFailAnswer
  try dsimp only
  repeat' first
    | assumption
    | (with_reducible apply steady_faultEngine hP)
    | (with_reducible apply steady_modSetup hP)
    | split

theorem steady_atTempTaken (c : Ctx) (band : Nat) (h : P b) : P (Blocks.atTempTaken c b band) := by
  unfold Blocks.atTempTaken
  try dsimp only
  repeat' first
    | assumption
    | (with_reducible apply steady_completeStep hP)
    | (with_reducible apply steady_modSetup hP)
    | split

theorem steady_soakEnds (c : Ctx) (h : P b) : P (Blocks.soakEnds c b) := by
  unfold Blocks.soakEnds
  try dsimp only
  repeat' first
    | assumption
    | (with_reducible apply steady_ready hP)
    | (with_reducible apply steady_completeStep hP)
    | (with_reducible apply steady_modSetup hP)
    | split

theorem steady_tempLostTaken (c : Ctx) (h : P b) : P (Blocks.tempLostTaken c b) := by
  unfold Blocks.tempLostTaken
  try dsimp only
  repeat' first
    | assumption
    | (with_reducible apply steady_tempLostInTest hP)
    | (with_reducible apply steady_faultEngine hP)
    | (with_reducible apply steady_sendSetpoint hP)
    | (with_reducible apply steady_modSetup hP)
    | split

theorem steady_kitInSetup (c : Ctx) (h : P b) : P (Blocks.kitInSetup c b) := by
  unfold Blocks.kitInSetup
  try dsimp only
  repeat' first
    | assumption
    | (with_reducible apply steady_completeStep hP)
    | (with_reducible apply steady_faultEngine hP)
    | split

theorem steady_kitHeld (c : Ctx) (h : P b) : P (Blocks.kitHeld c b) := by
  unfold Blocks.kitHeld
  try dsimp only
  repeat' first
    | assumption
    | (with_reducible apply steady_kitInSetup hP)
    | (with_reducible apply steady_kitInTest hP)
    | (with_reducible apply steady_modSetup hP)
    | split

theorem steady_endOperatorCommand (c : Ctx) (h : P b) : P (Blocks.endOperatorCommand c b) := by
  unfold Blocks.endOperatorCommand
  try dsimp only
  repeat' first
    | assumption
    | (with_reducible apply steady_operatorEnded hP)
    | (with_reducible apply steady_modSetup hP)
    | (with_reducible apply steady_toTester hP)
    | split

theorem steady_testerFaultTaken (c : Ctx) (h : P b) : P (Blocks.testerFaultTaken c b) := by
  unfold Blocks.testerFaultTaken
  try dsimp only
  repeat' first
    | assumption
    | (with_reducible apply steady_endOperatorCommand hP)
    | (with_reducible apply steady_abortTesting hP)
    | (with_reducible apply steady_faultEngine hP)
    | (with_reducible apply steady_setLatch hP)
    | split

theorem steady_handlerFaultTaken (c : Ctx) (h : P b) : P (Blocks.handlerFaultTaken c b) := by
  unfold Blocks.handlerFaultTaken
  try dsimp only
  repeat' first
    | assumption
    | (with_reducible apply steady_faultEngine hP)
    | (with_reducible apply steady_setLatch hP)
    | (with_reducible apply steady_modSetup hP)
    | split

end Sys2Proof.Machine
end

