-- ==== Sys2Proof/Laws/SteadyRequests.lean ====
section
/-! SUPPORT. What every rule of the blocks keeps: the requests. -/

namespace Sys2Proof.Machine

variable {P : Blocks → Prop} (hP : Steady P) {b : Blocks}
include hP

theorem steady_setEngine (e : EngineState) (h : P b) : P (Blocks.setEngine b e) := by
  unfold Blocks.setEngine
  try dsimp only
  repeat' first
    | assumption
    | (with_reducible apply steady_modSetup hP)

theorem steady_continuePaused (c : Ctx) (h : P b) : P (Blocks.continuePaused c b) := by
  unfold Blocks.continuePaused
  try dsimp only
  repeat' first
    | assumption
    | (with_reducible apply steady_setEngine hP)
    | (with_reducible apply steady_walkFrom hP)
    | (with_reducible apply steady_chainEnd hP)
    | split

theorem steady_operatorCommand (c : Ctx) (cmd : TesterCmd) (h : P b) : P (Blocks.operatorCommand c b cmd) := by
  unfold Blocks.operatorCommand
  try dsimp only
  repeat' first
    | assumption
    | (with_reducible apply steady_sendCommand hP)
    | (with_reducible apply steady_modSetup hP)

end Sys2Proof.Machine
end

