-- ==== Sys2Proof/Laws/SteadyStart.lean ====
section
/-! SUPPORT. What every rule of the blocks keeps: the warm reset. -/

namespace Sys2Proof.Machine

variable {P : Blocks → Prop} (hP : Steady P) {b : Blocks}
include hP

theorem steady_afterReply (c : Ctx) (h : P b) : P (Blocks.afterReply c b) := by
  have h1 := steady_settle hP c h
  unfold Blocks.afterReply
  split
  · exact h1
  · exact h1
  · exact h

theorem steady_resetTouchdown  (h : P b) : P (Blocks.resetTouchdown b) := by
  unfold Blocks.resetTouchdown
  try dsimp only
  repeat' first
    | assumption
    | (with_reducible apply steady_voidTouchdown hP)
    | (with_reducible apply steady_sortTouchdown hP)
    | split

theorem steady_raiseRestarts (c : Ctx) (lots : List Nat) (h : P b) : P (Blocks.raiseRestarts c b lots) :=
  steady_forLots _ _ (fun _ _ h => steady_raise hP c _ _ h) h


end Sys2Proof.Machine
end

