-- ==== Sys2Proof/Tests/Slice0.lean ====
section
/-! SUPPORT. Tests: a sample cell, the operands `wellFormed` refuses, the wire forms and request lines, worked examples of
the manual, and for each statement of `Obligations` a state and operands that meet its hypotheses, clause by clause. -/

set_option Elab.async false

namespace Sys2Proof.Tests

open Sys2Proof Sys2Proof.Machine

/-! ## A sample cell -/

/-- A recipe of two insertions, good bins 1 and 2. -/
def recipe : Recipe where
  product := 7
  packageClass := 12
  route := [⟨.room, 211, some 0, 1000, 0⟩, ⟨.hot, 212, none, 1000, 5⟩]
  goodBins := [1, 2]
  yieldLimit := 900
  minSample := 10
  binLimits := [⟨5, 30⟩]
  spreadLimit := 0
  siteMinSample := 50
  runLimit := 0
  familyYield := false
  familyBin := false

/-- The step table: a chain of the five kinds, the rest of no kind. -/
def steps : List StepRecord :=
  [⟨some .loadProgram, 0, 90, 300, some 1⟩, ⟨some .setBand, 0, 600, 1200, some 2⟩, ⟨some .confirmKit, 0, 300, 1800, some 3⟩,
    ⟨some .correlate, 24, 120, 600, some 4⟩, ⟨some .waitOperator, 0, 60, 900, none⟩] ++ List.replicate 43 ⟨none, 0, 0, 1, none⟩

/-- The working copy of the sample cell. -/
def image : WorkingCopy where
  imageLength := 518
  clamped := 0
  bitRate := 250
  bidWindow := 3
  acceptTimeout := 10
  arrivalTimeout := 60
  reofferInterval := 60
  attemptLimit := 4
  releaseWindow := 10
  rollcallWindow := 5
  rejoinInterval := 10
  remoteTimeout := 10
  filters := List.replicate 4 ⟨0, 0, false⟩
  sitesFitted := 4
  minSites := 2
  bands := [.room, .hot]
  slotCount := 2
  busyActiveHigh := true
  transition := [0, 600, 1200, 600, 0, 900, 1200, 900, 0]
  recipes := [recipe]
  steps := steps

/-- A lot record of the sample product. -/
def lot (id : Nat) (state : LotState) : LotRecord :=
  { LotRecord.fresh id state with
    product := 7, family := 70115, priority := 1, entryQty := 20, route := [⟨.room, 211⟩, ⟨.hot, 212⟩] }

/-- A hold of scope LOT without a trigger. -/
def hold (k : HoldKind) : Hold := ⟨k, 1, 0, .lot, none, []⟩

/-- A lot record with an open hold. -/
def heldLot (id : Nat) (state : LotState) (k : HoldKind) : LotRecord := { lot id state with holds := [hold k] }

/-- An account of 20 units: 12 placed, 10 counted in bin 1. -/
def account : Account := { Account.fresh 20 with placedMain := 12, bins := 10 :: List.replicate 14 0 }

/-- A lot in test with that account. -/
def testLot : LotRecord := { lot 40 .inTest with account := some account }

/-- The blocks of the sample cell: joined, settled, both slots resident. -/
def blocks : Blocks :=
  { Blocks.powerOn 2 4 none with
    link := { LinkCtl.powerOn with joined := true }
    family := { FamilyUnit.powerOn with unsettled := false }
    setup := { SetupUnit.powerOn 2 none with
      slots := [⟨.resident, some 211, some 50000⟩, ⟨.empty, none, none⟩], active := some 1, kitTaken := 12
      thermal := ⟨some .room, .ready, 0⟩ } }

/-- The sample cell running as station 5. -/
def cell (b : Blocks) : State := ⟨100000, .running, 5, image, true, ⟨false, false, false, 0, false⟩, b, []⟩

/-- The sample cell with some lots. -/
def cellWith (lots : List LotRecord) : State := cell { blocks with lots := lots }

/-- A touchdown of two units on sites 1 and 2. -/
def touchdown (stage : TdStage) : Touchdown := ⟨stage, .counted, [1, 2], [(3, .voidOpen)], some 9, some 104000, 0, false⟩

/-- The sample cell with a lot in test and a touchdown. -/
def testing (stage : TdStage) : Blocks :=
  { blocks with
    lots := [{ testLot with account := some { account with inSockets := 2 } }]
    td := { blocks.td with touchdown := some (touchdown stage), latch := false, sequence := 9 } }

/-- A walk of lot 40. -/
def walk (current : Option Nat) (inStep : Bool) : Walk := ⟨40, current, true, 2, inStep, some 130000, false, false, none, none, false⟩

/-- The sample cell with lot 40 in SETUP and a walk. -/
def setup (engine : EngineState) (w : Walk) (inFlight : Option (TesterCmd × Origin)) : Blocks :=
  { blocks with
    lots := [{ lot 40 .setup with account := some (Account.fresh 20) }]
    setup := { blocks.setup with engine := engine, walk := some w, inFlight := inFlight } }

/-- The sample cell with a frame in slot 1. -/
def sending (b : Blocks) (f : Frame) (onWire : Bool) : Blocks :=
  { b with link := { b.link with
      slots := some ⟨f, frameIdentifier 5 f.data, 1, onWire, false⟩ :: List.replicate 5 none, placements := 1 } }

/-- The sample cell with six frames in its slots. -/
def allSlots (b : Blocks) : Blocks :=
  { b with link := { b.link with slots := (List.range 6).map (fun i =>
      some ⟨⟨.release, i + 1, .object (i + 1) 1 9⟩, frameIdentifier 5 (.object (i + 1) 1 9), i + 1, false, false⟩) } }

/-- The blocks once a frame has been received and acknowledged (R22). -/
def acked (b : Blocks) : Blocks := { b with link := { b.link with signals := b.link.signals ++ [.acknowledge] } }

/-- The invariants, evaluated. -/
def soundly (b : Blocks) : Bool := decide b.sound

def balancing (b : Blocks) : Bool := decide b.accountsSound

/-- Whether a step answers a next state that some predicate picks. -/
def runs (o : Host.Outcome State Fault Refusal) (p : State → Bool) : Bool :=
  match o with
  | .next s => p s
  | _ => false

/-! ## Operands that fit no field (WellFormed) -/

theorem test_wf_request_number : (Instr.enter 10000000000 7 20 70115 1).wellFormed = false ∧
    (Instr.enter 1 7 10000000000 70115 1).wellFormed = false ∧ (Instr.enter 1 10000000000 20 70115 1).wellFormed = false ∧
    (Instr.enter 1 7 20 10000000000 1).wellFormed = false ∧ (Instr.enter 1 7 20 70115 10000000000).wellFormed = false ∧
    (Instr.arrive 10000000000).wellFormed = false ∧ (Instr.preload 10000000000 1).wellFormed = false ∧
    (Instr.preload 1 10000000000).wellFormed = false ∧ (Instr.evict 10000000000).wellFormed = false ∧
    (Instr.siteEnable 10000000000).wellFormed = false ∧ (Instr.siteDisable 10000000000).wellFormed = false ∧
    (Instr.purge 10000000000 1).wellFormed = false ∧ (Instr.purge 1 10000000000).wellFormed = false ∧
    (Instr.status (some .lot) (some 10000000000)).wellFormed = false ∧ (Instr.dispose 10000000000 none none).wellFormed = false ∧
    (Instr.recall 10000000000).wellFormed = false ∧ (Instr.reoffer 10000000000).wellFormed = false ∧
    (Instr.holdLot 10000000000).wellFormed = false := by decide +kernel

theorem test_wf_image : (Instr.imageLoaded (some (List.replicate 65537 0))).wellFormed = false := by decide +kernel

theorem test_wf_identifier_fields : (Instr.frameDiscarded 4 0 1).wellFormed = false ∧
    (Instr.frameDiscarded 0 16 1).wellFormed = false ∧ (Instr.frameDiscarded 0 0 64).wellFormed = false ∧
    (Instr.rollcallHeard 64).wellFormed = false := by decide +kernel

theorem test_wf_frame_fields : (Instr.holdHeard 1 16777216 1 1).wellFormed = false ∧
    (Instr.holdHeard 1 1 4294967296 1).wellFormed = false ∧ (Instr.clearHeard 1 1 1 256).wellFormed = false ∧
    (Instr.objectHeard 1 1 256 1).wellFormed = false ∧ (Instr.awardHeard 1 4294967296 1).wellFormed = false ∧
    (Instr.acceptHeard 64 1 1).wellFormed = false ∧ (Instr.bidHeard 1 1 1 65536).wellFormed = false ∧
    (Instr.intentHeard 1 1 16777216).wellFormed = false ∧ (Instr.shippedHeard 1 1 1 65536).wellFormed = false ∧
    (Instr.disposeHeard 1 1 256 1 1).wellFormed = false ∧ (Instr.disposedHeard 1 1 1 1 256).wellFormed = false := by
  decide +kernel

theorem test_wf_dossier : (Instr.dossierHeard 1 (.identity 1 65536 1 1 1 1 1 1 3)).wellFormed = false ∧
    (Instr.dossierHeard 1 (.route 1 [(1, 1)])).wellFormed = false ∧
    (Instr.dossierHeard 1 (.summary 2 1 1 1 0 1 1 1 1)).wellFormed = false ∧
    (Instr.dossierHeard 1 (.summary 3 1 1 1 8388608 1 1 1 1)).wellFormed = false ∧
    (Instr.dossierHeard 1 (.unnumbered 3)).wellFormed = false := by decide +kernel

theorem test_wf_offer : (Instr.offerHeard 1 ⟨1, 7, 1, 16, 1, 20, 12, 2, 211⟩).wellFormed = false ∧
    (Instr.offerHeard 1 ⟨1, 7, 1, 1, 16, 20, 12, 2, 211⟩).wellFormed = false ∧
    (Instr.offerHeard 1 ⟨1, 7, 1, 1, 1, 20, 256, 2, 211⟩).wellFormed = false := by decide +kernel

theorem test_wf_ports_and_deadlines : (Instr.loaded 256).wellFormed = false ∧ (Instr.atTemp 256).wellFormed = false ∧
    (Instr.tdResult 256 (List.replicate 8 0)).wellFormed = false ∧ (Instr.tdResult 1 [1]).wellFormed = false ∧
    (Instr.tdResult 1 [256, 0, 0, 0, 0, 0, 0, 0]).wellFormed = false ∧ (Instr.reofferDeadline 4294967296).wellFormed = false := by
  decide +kernel

theorem test_wf_accepts : (Instr.enter 1 7 20 70115 1).wellFormed = true ∧ (Instr.offerHeard 1 ⟨1, 7, 1, 1, 1, 20, 12, 2, 211⟩).wellFormed = true ∧
    (Instr.dossierHeard 1 (.summary 3 1 1 1 (-20) 1 1 1 1)).wellFormed = true := by decide +kernel

/-! ## Wire forms, from the manual's examples -/

/-- Identifiers of station 7 (2.2, six slots under pressure). -/
theorem test_identifiers_station_7 : frameIdentifier 7 (.hold 88410 9001 7) = 7 ∧ frameIdentifier 7 (.clear 51002 1 7) = 16391 ∧
    frameIdentifier 7 (.dossier (.summary 3 1 4 3420 0 3310 110 0 0)) = 278727 ∧ frameIdentifier 7 (.bid 9001 4 2978) = 541383 ∧
    frameIdentifier 7 (.bid 9004 4 1100) = 540935 ∧ frameIdentifier 7 (.offer ⟨6120, 7, 1, 1, 2, 20, 12, 2, 211⟩) = 524423 ∧
    frameIdentifier 7 (.accept 8133 4) = 294919 ∧ frameIdentifier 7 (.take 1 4) = 311303 := by decide +kernel

/-- Identifiers of the other stations' examples (03, 04, 09). -/
theorem test_identifiers_other_stations : frameIdentifier 4 (.offer ⟨9001, 4100, 70115, 2, 1, 3310, 12, 3, 211⟩) = 524356 ∧
    frameIdentifier 4 (.award 9001 7) = 262148 ∧ frameIdentifier 4 (.bid 9001 4 4410) = 541764 ∧
    frameIdentifier 4 (.dossier (.identity 9001 4100 70115 1 3420 3 2 1 3)) = 278596 ∧
    frameIdentifier 4 (.dossier (.route 9001 [(2, 117), (3, 211), (2, 205), (0, 0)])) = 278660 ∧
    frameIdentifier 4 (.dossier (.summary 3 1 4 3420 0 3310 110 0 0)) = 278724 ∧ frameIdentifier 19 (.bid 9001 4 2978) = 541395 ∧
    frameIdentifier 21 (.intent 8840 44210) = 802837 ∧ frameIdentifier 21 (.shipped 8840 44210 14) = 819221 ∧
    frameIdentifier 19 (.object 8840 2 21) = 32787 := by decide +kernel

/-- A HOLD for family 70,115 and lot 9001 raised by station 4, heard at station 7 (R20, 11.1). -/
theorem test_hold_frame_heard : receiveFrame 7 4 [0x01, 0x11, 0xE3, 0, 0, 0x23, 0x29, 4] = .holdHeard 4 70115 9001 4 ∧
    frameBytes (.hold 70115 9001 4) = [0x01, 0x11, 0xE3, 0, 0, 0x23, 0x29, 4] := by decide +kernel

/-- An AWARD of lot 9001 to station 7 from station 4, and the same with its data cut short (R31). -/
theorem test_award_frame_heard : receiveFrame 7 262148 [0, 0, 0x23, 0x29, 7] = .awardHeard 4 9001 7 ∧
    receiveFrame 7 262148 [0, 0, 0x23, 0x29] = .frameDiscarded 1 0 4 := by decide +kernel

/-- The insertion number stands in the upper half of the OFFER's byte 9, the priority in the lower (11.1). -/
theorem test_offer_frame_heard : receiveFrame 7 524356 [0, 0, 0x23, 0x29, 0x10, 0x04, 0x01, 0x11, 0xE3, 0x21, 0x0C, 0xEE, 12, 3, 0, 211] =
    .offerHeard 4 ⟨9001, 4100, 70115, 2, 1, 3310, 12, 3, 211⟩ := by decide +kernel

/-- An adj of -2 in 24 bits of two's complement (R193). -/
theorem test_summary_adj_is_signed :
    receiveFrame 7 278724 [1, 4, 0, 20, 0xFF, 0xFF, 0xFE, 0, 15, 0, 2, 0, 1, 0, 0, 0] = .dossierHeard 4 (.summary 3 1 4 20 (-2) 15 2 1 0) := by
  decide +kernel

/-- TD_READY with sites 1 to 4 (11.2); a wrong check byte discards it (R194). -/
theorem test_port_message : receiveMessage .handler [0x11, 1, 0x0F, 0xDF] = .tdReady 0x0F ∧
    receiveMessage .handler [0x11, 1, 0x0F, 0xDE] = .portMessageDiscarded .handler ∧
    receiveMessage .tester [0x11, 1, 0x0F, 0xDF] = .portMessageDiscarded .tester ∧
    testerBytes (.load 2 211) = [0x29, 3, 2, 0, 211, 255] := by decide +kernel

/-- A request in small letters with extra spaces (R184). -/
theorem test_line_enter : lineCommand ['e', 'n', 't', 'e', 'r', ' ', ' ', '9', ' ', '7', ' ', '2', '0', ' ', '1', '1', ' ', '2'] =
    some (.enter 9 7 20 11 2) := by decide +kernel

/-- Lines that are no request, or have a wrong parameter count (R184), and a line of spaces. -/
theorem test_line_refused : lineCommand ['A', 'R', 'R', 'I', 'V', 'E'] = some (.malformedRequest .requestForm) ∧
    lineCommand ['F', 'L', 'Y'] = some (.malformedRequest .unknownName) ∧ lineCommand [' ', ' '] = none ∧
    lineCommand (List.replicate 81 'A') = some (.malformedRequest .tooLong) ∧
    lineCommand ['D', 'I', 'S', 'P', 'O', 'S', 'E', ' ', '9', ' ', 'Y', 'I', 'E', 'L', 'D', ' ', 'S', 'C', 'R', 'A', 'P'] =
      some (.dispose 9 (some .yield) (some .scrap)) := by decide +kernel

/-- Each outgoing line ends with a carriage return and a line feed, also one that a warm reset ends (R183, R187). -/
theorem test_line_sent : (SentLine.whole (.reply (.no .busy))).text = "NO BUSY\r\n" ∧
    (SentLine.cut (.reply (.no .busy)) 4).text = "NO B\r\n" := by decide +kernel

/-- Characters received: discarded up to the next carriage return while RESET_N is held, gathered while the part runs (R183). -/
theorem test_line_received :
    let held := { cell blocks with pins := { (cell blocks).pins with resetHeld := true } }
    (held.receiveChar 'S').blocks.op.discarding = true ∧ ((held.receiveChar 'S').receiveChar '\r').blocks.op.discarding = false ∧
    ((cell blocks).receiveChar 's').blocks.op.gathered = ['s'] ∧ ((cell blocks).receiveChar '\r').pending = [] := by decide +kernel

/-! ## Worked examples of the manual -/

/-- The filter of station 15 (2.3): two enabled entries over product and band. -/
def filterCtx : Ctx :=
  { (cell blocks).ctx with cfg := { image with filters :=
      [⟨0x1004C0, 0xFFFFC0, true⟩, ⟨0x1000C0, 0xFFF0C0, true⟩, ⟨0, 0, false⟩, ⟨0, 0, false⟩] } }

theorem test_filter_example : filterCtx.passesFilter ⟨1, 4100, 1, 1, 1, 1, 12, 3, 1⟩ = true ∧
    filterCtx.passesFilter ⟨1, 4109, 1, 1, 1, 1, 7, 3, 1⟩ = true ∧ filterCtx.passesFilter ⟨1, 4100, 1, 1, 1, 1, 12, 2, 1⟩ = false ∧
    filterCtx.passesFilter ⟨1, 4112, 1, 1, 1, 1, 12, 3, 1⟩ = false := by decide +kernel

/-- Station 7's cost for lot 9001 (3.3): backlog 1,658, changeover 1,320, cost 2,978. -/
def costCtx : Ctx :=
  { (cell blocks).ctx with own := 7, cfg := { image with
      transition := [0, 0, 0, 0, 0, 600, 0, 0, 0]
      recipes := [
        { recipe with product := 4100, route := [⟨.room, 117, none, 1000, 0⟩, ⟨.hot, 211, some 0, 1900, 5⟩] },
        { recipe with product := 1, route := [⟨.room, 117, none, 2500, 0⟩] },
        { recipe with product := 2, route := [⟨.room, 205, none, 1900, 0⟩] }]
      steps := [⟨some .confirmKit, 0, 900, 1, some 1⟩, ⟨some .loadProgram, 0, 240, 1, some 2⟩, ⟨some .setBand, 0, 1, 1, some 3⟩,
        ⟨some .correlate, 8, 180, 1, none⟩] } }

def costBlocks : Blocks :=
  { blocks with
    lots := [
      { lot 1 .inTest with product := 1, priority := 1, route := [⟨.room, 117⟩], entryQty := 3000
                           account := some { Account.fresh 3000 with placedMain := 1800, voidOpen := 4 } },
      { lot 2 .queued with product := 2, route := [⟨.room, 205⟩], entryQty := 2000, arrival := some 1 }]
    td := { blocks.td with timerRing := List.replicate 16 2350 }
    setup := { blocks.setup with
      slots := [⟨.resident, some 117, none⟩, ⟨.resident, some 205, none⟩], kitTaken := 12 } }

theorem test_cost_of_station_7 : costBlocks.backlog costCtx = 1658 ∧
    costBlocks.bidCost? costCtx ⟨9001, 4100, 70115, 2, 1, 3310, 12, 3, 211⟩ false = some 2978 := by decide +kernel

/-- Choosing the next lot at station 12 (1.5): 7712 is before 7745, and the held 7730 is passed over. -/
def queueBlocks : Blocks :=
  { blocks with lots := [
      { lot 7701 .queued with priority := 2, arrival := some 8866010 }, { lot 7712 .queued with arrival := some 9102505 },
      { heldLot 7730 .queued .family with priority := 0, arrival := some 9480112 },
      { lot 7745 .queued with arrival := some 9102505 }] }

theorem test_queue_order : queueBlocks.queue.map (·.lot) = [7730, 7712, 7745, 7701] ∧
    ((queueBlocks.settle (cell blocks).ctx).cellLot?.map (·.lot)) = some 7712 := by decide +kernel

/-- The 151st touchdown of lot 6120 (1.6): three units to bin 1, one void. -/
theorem test_account_in_flight :
    let a := { Account.fresh 1204 with
      placedMain := 603, inSockets := 4, bins := [571, 0, 18, 0, 0, 0, 0, 0, 7, 0, 0, 0, 0, 0, 0], voidOpen := 3 }
    let a' := a.takeResult [1] [1, 1, 1, 0, 0, 0, 0, 0] [1, 2, 3, 4]
    a.tested = 596 ∧ a'.bin 1 = 574 ∧ a'.voidOpen = 4 ∧ a'.inSockets = 0 ∧ a'.tested = 599 ∧ a'.placedMain = 603 := by
  decide +kernel

/-- The evaluation of station 30 (7.1): site 4 is HELD for its spread, YIELD is raised at 377 of 412, no BIN. -/
def evaluated : Blocks :=
  let c : Ctx := { (cell blocks).ctx with cfg := { image with recipes := [{ recipe with
    goodBins := [1], yieldLimit := 920, minSample := 400, binLimits := [⟨7, 30⟩, ⟨9, 20⟩], spreadLimit := 60,
    siteMinSample := 100, runLimit := 6 }] } }
  let a : Account := { Account.fresh 3000 with
    placedMain := 412, bins := [377, 18, 0, 0, 0, 0, 11, 0, 6, 0, 0, 0, 0, 0, 0], siteTested := [103, 103, 103, 103, 0, 0, 0, 0]
    siteGood := [97, 96, 95, 89, 0, 0, 0, 0], failRun := [0, 1, 0, 2, 0, 0, 0, 0] }
  { blocks with lots := [{ lot 7401 .inTest with account := some a }] }.evaluate c 7401

theorem test_evaluation_example : evaluated.td.site 4 = .held .spread ∧ evaluated.td.enabledCount = 3 ∧
    evaluated.td.latch = true ∧ ((evaluated.lot? 7401).map (·.holds)) = some [⟨.yield, 1, 100000, .lot, some (377, 412), []⟩] ∧
    Notice.siteHeld (some 7401) 4 .spread [864, 932] ∈ evaluated.op.notices := by decide +kernel

/-- The link states of station 31 (2.4). -/
theorem test_link_states : linkStateOf 78 0 = .normal ∧ linkStateOf 84 0 = .warned ∧ linkStateOf 138 0 = .warned ∧
    linkStateOf 144 0 = .quiet ∧ linkStateOf 228 0 = .quiet ∧ linkStateOf 234 0 = .withdrawn := by decide

/-! ## States and operands that meet the hypotheses of the statements -/

/-- A sound image without recipes: the header, the length 461, the sum of the rest, and zeros. -/
def mem : List Byte := [0x4A, 0x43, 0x01, 0xCD, 0, 0] ++ List.replicate 455 0

/-- An image of one recipe whose good-bin set is `good`, with its sum. -/
def memOne (good sum : Byte) : List Byte :=
  [0x4A, 0x43, 0x02, 0x06, 0, sum] ++ List.replicate 70 0 ++ [1] ++ List.replicate 33 0 ++ [good] ++ List.replicate 407 0

/-- An image whose last step record names step 48. -/
def memLink : List Byte := [0x4A, 0x43, 0x01, 0xCD, 0, 48] ++ List.replicate 454 0 ++ [48]

/-- Power applied, the loader reading, with the straps given. -/
def loading (straps : BitVec 6) : State := { State.reset with run := .loading, straps := straps }

theorem test_hyps_StepTakesTheFrontCommand : { cell blocks with pending := [.stopCell, .rejoin] }.pending = .stopCell :: [.rejoin] :=
  rfl

/-- The clock one short of its end. -/
theorem test_hyps_ElapsedTimeMovesTheCounts :
    let s := { cell (testing .testing) with clock := Config.clockEnd - 2 }
    s.live = true ∧ s.clock + 1 < Config.clockEnd := by decide +kernel

/-- Records, a bid record and a roll-call window that one millisecond brings due. -/
def dueSoon : State :=
  cell { blocks with
    lots := [{ lot 1 .awaiting with deadline := some ⟨.reoffer, 100001⟩ }], bids := [⟨2, 9, 70115, 100, 85001, none⟩]
    family := { blocks.family with window := some 100001 } }

/-- A cell where the other times come due in the next millisecond. -/
def dueCell : State :=
  let b := testing .testing
  cell { b with
    lots := b.lots ++ [{ lot 2 .finished with releaseRetry := some 100001 }]
    release := ⟨[⟨30, 70115, 14, 90000, true, some 100001, none⟩], []⟩
    remote := some ⟨8, .yield, .resume, 100001, 1⟩
    family := { b.family with rollcallDue := true, rollcallRetry := some 100001 }
    setup := { b.setup with
      walk := some { walk (some 1) true with deadline := some 100001 }, operatorDeadline := some 100001
      thermal := ⟨some .room, .soaking, 1⟩, kitSince := some 99951 }
    td := { b.td with touchdown := some { touchdown .testing with deadline := some 100001 } } }

/-- A walk at its selection deadline. -/
def selecting : State := cell (setup .running { walk none false with deadline := some 100001 } none)

/-- A station WITHDRAWN whose rejoin interval has passed. -/
def rejoining : State := cell { blocks with link := { blocks.link with state := .withdrawn, txErr := 234, rejoinAcc := 10000 } }

theorem test_rejoin_due : rejoining.live = true ∧ rejoining.pending = [] ∧ rejoining.blocks.link.state = .withdrawn ∧
    rejoining.image.rejoinInterval * 1000 ≤ (rejoining.elapse 1).blocks.link.rejoinAcc :=
  ⟨rfl, rfl, rfl, show 10000 ≤ 10000 + _ from Nat.le_add_right _ _⟩

theorem test_hyps_IdleStepPassesOneMillisecond : State.reset.pending = [] ∧ State.reset.run = .off ∧ (loading 5).run ≠ .off ∧
    (loading 5).live = false ∧ dueSoon.pending = [] ∧ dueSoon.live = true ∧ (dueSoon.elapse 1).clock = 100001 ∧
    (dueSoon.blocks.bids.map (fun r => r.sentAt.getD r.created + 15000)) = [100001] ∧
    runs (step dueSoon) (fun t => decide (t.pending = [.reofferDeadline 1, .bidRecordExpiry 2, .rollcallWindowEnd])) = true ∧
    (dueCell.pending = [] ∧ dueCell.live = true ∧ selecting.pending = []) ∧
    runs (step dueCell) (fun t => decide (t.pending = [.releaseRetryTime 2, .shippedRetry 30, .rollcallRetry, .remoteAnswerTimeout,
      .stepTimeout, .operatorCommandTimeout, .soakEnd, .kitTaken, .tdTimeout])) = true ∧
    runs (step selecting) (fun t => decide (t.pending = [.selectionDeadline])) = true := by
  decide +kernel

/-- Station numbers at both ends of the range. -/
theorem test_hyps_PowerOnAndImageStartThePart : (loading 1).run = .loading ∧ (loading 1).pins.resetHeld = false ∧
    imageFault? (some mem) = none ∧ 1 ≤ (loading 1).straps.toNat ∧ (loading 62).straps.toNat ≤ 62 ∧
    runs (exec (.imageLoaded (some mem)) (loading 62)) (fun t => decide (t.run = .running ∧ t.image.bidWindow = 1 ∧
      t.blocks.link.slots = List.replicate 6 none ∧ t.blocks.family.rollcallDue = true)) = true := by
  decide +kernel

/-- One image for each cause: none, a wrong header, a wrong sum, no good bin, a bad step link, straps 63. -/
theorem test_hyps_FirstFailedCheckIsTheCause : headerOk (0 :: mem.tail) = false ∧
    (headerOk (memOne 0 2) = true ∧ byteSum (memOne 0 2) (numberAt (memOne 0 2) 2 2) ≠ numberAt (memOne 0 2) 4 2) ∧
    (headerOk (memOne 0 1) = true ∧ byteSum (memOne 0 1) (numberAt (memOne 0 1) 2 2) = numberAt (memOne 0 1) 4 2 ∧
      ∃ i < min 24 (numberAt (memOne 0 1) 76 1), goodBinsOf (numberAt (memOne 0 1) (77 + 57 * i + 32) 2) = []) ∧
    (headerOk memLink = true ∧ byteSum memLink (numberAt memLink 2 2) = numberAt memLink 4 2 ∧
      (∀ i < min 24 (numberAt memLink 76 1), goodBinsOf (numberAt memLink (77 + 57 * i + 32) 2) ≠ []) ∧
      ∃ n ∈ stepNexts memLink ++ chainHeads memLink, 48 ≤ n ∧ n ≠ 255) ∧
    (imageFault? (some mem) = none ∧ (loading 63).straps.toNat = 63 ∧ (loading 0).straps.toNat = 0) ∧
    runs (exec (.imageLoaded none) (loading 5)) (fun t => decide (t.run = .configFault .noImage)) = true := by decide +kernel

/-- The part in CONFIG_FAULT. -/
def faulty : State := { State.reset with run := .configFault .header }

theorem test_hyps_WhatIsTakenWhileNotRunning : State.reset.live = false ∧ Instr.isLevel .rejoin = false ∧
    Instr.isTerminal .rejoin = false ∧ faulty.live = false ∧ faulty.lineOpen = true ∧ Instr.isTerminal .sorted = false ∧
    (loading 5).live = false ∧ Instr.isTerminal .stopCell = true ∧ (loading 5).lineOpen = false ∧
    faulty.run = .configFault .header ∧ faulty.pins.resetHeld = false ∧
    faulty.blocks.op.restarting = false ∧ faulty.blocks.op.replying = false ∧ Instr.isOrder .stopCell = true := by decide +kernel

/-- The sample cell with RESET_N held, and with a RESTART whose reply has been sent. -/
def resetting : State :=
  let s := cell { setup .running (walk (some 1) true) none with
    lots := [lot 10 .offered, lot 20 .releasing, { lot 40 .setup with account := some (Account.fresh 20) }] }
  { s with pins := { s.pins with resetHeld := true } }

/-- The sample cell with RESET_N held, a lot in test with a parked touchdown, slot 2 LOADING, and the handler ramping. -/
def resettingTest : State :=
  let s := cell { testing .parked with setup := { blocks.setup with
    slots := [⟨.resident, some 211, some 50000⟩, ⟨.loading, some 300, none⟩], inFlight := some (.load 2 300, .operator)
    operatorDeadline := some 900000, thermal := ⟨some .hot, .ramping, 0⟩ } }
  { s with pins := { s.pins with resetHeld := true } }

theorem test_hyps_WarmResetKeepsTheLots : resetting.run = .running ∧ resetting.pins.resetHeld = true ∧
    (resetting.blocks.lots.map (·.lot)).Nodup ∧ (∀ r ∈ resetting.blocks.lots, r.state ≠ .inboundPending ∧ r.ending = false) ∧
    ({ (cell blocks).blocks.op with restarting := true }).restartReady = true ∧
    runs (exec (.warmReset 62) resetting) (fun t => decide (t.blocks.lots.map (·.hasHold .restart) = [false, false, true])) = true ∧
    (resetting.blocks.td.touchdown = none ∧ resettingTest.blocks.td.touchdown = some (touchdown .parked) ∧
      (resettingTest.blocks.testLot?.bind (·.account)) = some { account with inSockets := 2 }) ∧
    runs (exec (.warmReset 1) resettingTest) (fun t => decide (t.blocks.td.latch = true ∧
      t.blocks.ports.toHandler = [.sort [.void, .void, .void, .none, .none, .none, .none, .none]] ∧
      (t.blocks.lot? 40).bind (·.account) = some { account with voidOpen := 2 } ∧ t.blocks.setup.inFlight = none ∧
      t.blocks.setup.slots[1]? = some ⟨.invalid, some 300, none⟩ ∧ t.blocks.setup.thermal = ⟨some .hot, .unknown, 0⟩ ∧
      t.blocks.setup.active = some 1 ∧ t.blocks.op.sending = some (.notice (.restarted true 1) none))) = true := by
  decide +kernel

/-- The sample cell with the operator line at `o`. -/
def lineAt (o : OperatorLine) : State := cell { blocks with op := o }

/-- A line completed behind a reply, with the waiting place free and taken; a notice out with a reply behind it, with a
notice behind it, with nothing; a reply out with a line waiting. -/
theorem test_hyps_OperatorLinesGoInTurn :
    let q : OperatorLine := { OperatorLine.powerOn with sending := some (.reply .ok) }
    let o : OperatorLine := { OperatorLine.powerOn with sending := some (.notice .stopped none) }
    let r : OperatorLine := { OperatorLine.powerOn with sending := some (.reply .ok), waiting := some .stopCell }
    (OperatorLine.powerOn.gathered = [] ∧ OperatorLine.powerOn.tooLong = false ∧ OperatorLine.powerOn.discarding = false ∧
      [' ', 'S', 'T', 'O', 'P'].map Char.toNat = [32, 83, 84, 79, 80]) ∧
    (([' ', 'S', 'T', 'O', 'P'].foldl (fun o ch => (OperatorLine.gather o ch).1) OperatorLine.powerOn).gather '\r' =
      (OperatorLine.powerOn, some .stopCell)) ∧
    (({ o with restarting := true } : OperatorLine).restartReady = true ∧ o.restartReady = false) ∧
    (lineAt q).lineOpen = true ∧ (lineAt q).blocks.op.restarting = false ∧ Instr.isLine .stopCell = true ∧
    (lineAt q).blocks.op.sending = some (.reply .ok) ∧ (lineAt q).blocks.op.waiting = none ∧
    ((lineAt r).lineOpen = true ∧ (lineAt r).blocks.op.waiting.isSome = true ∧ (lineAt r).blocks.op.restarting = false) ∧
    runs (exec .stopCell (lineAt r)) (fun t => decide (t.blocks.op.busyBehind = 1)) = true ∧
    (lineAt o).lineOpen = true ∧ ({ o with replies := [.ok] } : OperatorLine).replies = .ok :: [] ∧
    (o.replies = [] ∧ ({ o with notices := [.tdTimeout], overflowMark := true, overflowCount := 255 } : OperatorLine).notices =
      .tdTimeout :: []) ∧ o.notices = [] ∧
    ((lineAt r).live = true ∧ r.sending = some (.reply .ok) ∧ r.replies = [] ∧ r.waiting = some .stopCell) ∧
    runs (exec .outgoingLineSent (lineAt { r with busyBehind := 1 })) (fun t => decide (t.blocks.op.replies = [.no .busy])) = true := by
  decide +kernel

theorem test_hyps_OneReplyAndNoEffectOfARefusal : (cell blocks).parses = true ∧ (cell blocks).blocks.op.replies = [] ∧
    (cell blocks).blocks.op.sending = none ∧
    (lineAt { OperatorLine.powerOn with sending := some (.notice .stopped none) }).parses = true ∧ (cell blocks).blocks.link.requests = [] ∧
    runs (exec .startCell (cell blocks)) (fun t => decide (t.blocks.op.sending = some (.reply (.no .notActive)))) = true := by
  decide +kernel

theorem test_hyps_StatusIsASnapshot : (cellWith [lot 1 .awaiting, lot 4294967295 .queued]).parses = true ∧
    (cellWith [lot 1 .awaiting, lot 4294967295 .queued]).blocks.lot? 4294967295 = some (lot 4294967295 .queued) ∧
    (cell blocks).blocks.lot? 1 = none ∧ (0 < 1 ∧ 4294967295 < 4294967296) ∧
    (let no := fun (code : ReplyCode) t => decide ((t : State).blocks.op.sending = some (.reply (.no code)))
     runs (exec (.status (some .lot) (some 2)) (cell blocks)) (no .unknownLot) = true ∧
     runs (exec (.status (some .lot) (some 4294967296)) (cell blocks)) (no .badValue) = true) ∧
    runs (exec (.status (some .family) none) (cell { blocks with family := { blocks.family with entries := [], unsettled := true } }))
      (fun t => decide (t.blocks.op.sending = some (.reply (.status .family [[⟨"saturated", .word "clear"⟩, ⟨"unsettled", .word "set"⟩,
        ⟨"refusal_mark", .word "clear"⟩], [⟨"rollcall_due", .word "clear"⟩, ⟨"cursor_walking", .word "clear"⟩, ⟨"free_places", .num 16⟩]])))) = true := by
  decide +kernel

/-- A full table: sixteen records. -/
def full : State := cellWith ((List.range 16).map (fun i => lot (i + 1) .finished))

/-- A family listed by another station's entry. -/
def entry (family lot raiser : Nat) (state : EntryState) : FamilyEntry := ⟨family, lot, raiser, false, state, 5000, false⟩

/-- A local entry of lot 40. -/
def localEntry : FamilyEntry := ⟨70115, 40, 5, true, .confirmed, 5000, false⟩

/-- The sample cell with family hold list entries. -/
def listing (b : Blocks) (es : List FamilyEntry) : Blocks := { b with family := { b.family with entries := es } }

/-- Every operand at an end of its range; an unknown product, a lot held already, a full table, a free one. -/
theorem test_hyps_EnterAndArrive : (cell blocks).parses = true ∧ (∀ r ∈ (cell blocks).image.recipes, r.product ≠ 65535) ∧
    ((cellWith [lot 4294967295 .queued]).blocks.lot? 4294967295).isSome = true ∧ 16 ≤ full.blocks.lots.length + full.blocks.bids.length ∧
    full.parses = true ∧ (cell blocks).image.recipes.find? (fun r => r.product == 7) = some recipe ∧ (cell blocks).blocks.lots = [] ∧
    (blocks.family.holdsFamily 16777215 = false ∧ (listing blocks [entry 1 9 9 .confirmed]).family.holdsFamily 1 = true) ∧
    runs (exec (.enter 9 7 20 1 0) (cell (listing blocks [entry 1 9 9 .confirmed])))
      (fun t => (t.blocks.lot? 9).any (·.hasHold .family)) = true := by decide +kernel

/-- An inbound lot from station 9. -/
def inbound (id : Nat) : LotRecord := { lot id .inbound with peer := some 9, deadline := some ⟨.arrivalTimeout, 200000⟩ }

theorem test_hyps_EnterAndArrive_arrive :
    let s := cellWith [inbound 4294967295]
    s.parses = true ∧ s.blocks.lot? 4294967295 = some (inbound 4294967295) ∧ (inbound 4294967295).state = .inbound ∧
    (inbound 4294967295).peer = some 9 ∧ (∀ a ∈ s.blocks.custody.answers, a.lot ≠ 4294967295) ∧
    (inbound 4294967295).ending = false ∧ (inbound 4294967295).hasHold .family = false ∧ (∀ r ∈ s.blocks.lot? 1, r.state ≠ .inbound) ∧
    runs (exec (.arrive 4294967295) s) (fun t => decide ((t.blocks.lot? 4294967295).map (·.takenFrom) = some (some 9))) = true := by
  decide +kernel

/-- An arrival whose ACCEPT is still due, and one whose DECLINE is (R78). -/
theorem test_hyps_EnterAndArrive_answers :
    let s := fun k => cell { blocks with lots := [inbound 1], custody := ⟨[⟨1, k, 9⟩], []⟩ }
    (s .accept).blocks.custody.answers = [⟨1, .accept, 9⟩] ∧ (∃ a ∈ (s .decline).blocks.custody.answers, a.lot = 1 ∧ a.kind = .decline) ∧
    runs (exec (.arrive 1) (s .accept)) (fun t => decide ((t.blocks.lot? 1).map (·.takenFrom) = some (some 9) ∧
      t.blocks.custody.answers = [⟨1, .accept, 9⟩, ⟨1, .take, 9⟩])) = true ∧
    runs (exec (.arrive 1) (s .decline)) (fun t => decide (t.blocks.op.sending = some (.reply (.no .unknownLot)))) = true ∧
    runs (exec (.arrive 4294967296) (s .accept)) (fun t => decide (t.blocks.op.sending = some (.reply (.no .badValue)))) = true := by
  decide +kernel

/-- A lot out to station 9. -/
def outbound (id : Nat) : LotRecord := { lot id .outbound with peer := some 9 }

theorem test_hyps_RecallAndReoffer :
    let s := cellWith [outbound 1, lot 4294967295 .awaiting]
    s.parses = true ∧ s.blocks.lot? 1 = some (outbound 1) ∧ (outbound 1).state = .outbound ∧ (outbound 1).peer = some 9 ∧
    s.blocks.link.state ≠ .withdrawn ∧ (∀ a ∈ s.blocks.custody.answers, a.lot ≠ 1) ∧
    s.blocks.lot? 4294967295 = some (lot 4294967295 .awaiting) ∧ (lot 4294967295 .awaiting).state = .awaiting ∧
    (cell { s.blocks with link := { s.blocks.link with state := .withdrawn } }).parses = true ∧
    runs (exec (.recall 1) s) (fun t => decide ((t.blocks.lot? 1).map (·.recallMark) = some (some 9))) = true := by decide +kernel

/-- One state for each clause: no walk, paused at END and before the head, faulted, running in a step and at the chain end, pausing, paused; at the
WAIT_OPERATOR step 4 and at a step of another kind. -/
theorem test_hyps_PauseAndContinue :
    let at_ := fun e n inStep => cell (setup e (walk n inStep) none)
    let head := { walk (some 0) false with begun := false }
    ((cell blocks).parses = true ∧ blocks.setup.engine = .idle ∧ blocks.setup.walk = none) ∧
    ((setup .paused (walk none false) none).setup.walk = some (walk none false) ∧ (walk none false).begun = true) ∧
    ((setup .paused head none).setup.walk = some head ∧ head.begun = false ∧
      (setup .paused head (some (.load 2 300, .operator))).setup.inFlight.isSome = true) ∧
    runs (exec .continueWalk (at_ .paused none false)) (fun t => decide (t.blocks.lots.map (·.state) = [.inTest])) = true ∧
    runs (exec .continueWalk (cell (setup .paused head none))) (fun t => decide (t.blocks.setup.walk.map (·.current) = some (some 4))) = true ∧
    runs (exec .pauseWalk (at_ .running none false)) (fun t => decide (t.blocks.setup.walk.map (·.deadline) = some none)) = true ∧
    (at_ .faulted (some 1) false).blocks.setup.engine = .faulted ∧
    ((at_ .running (some 1) true).blocks.setup.walk = some (walk (some 1) true) ∧ (walk (some 1) true).inStep = true) ∧
    ((at_ .running none false).blocks.setup.walk = some (walk none false) ∧ (walk none false).inStep = false) ∧
    ((at_ .pausing (some 1) true).ctx.stepRecord 1).kind ≠ some .waitOperator ∧
    ((at_ .pausing (some 4) true).ctx.stepRecord 4).kind = some .waitOperator ∧ (walk (some 4) true).current = some 4 ∧
    ((at_ .paused (some 0) false).blocks.setup.engine = .paused ∧ (walk (some 0) false).begun = true) ∧
    runs (exec .continueWalk (at_ .pausing (some 1) true)) (fun t => decide (t.blocks.setup.engine = .running)) = true := by
  decide +kernel

/-- A walk that has stepped on from step 0, one that has looked at 16 records, and at END a program that is not RESIDENT,
TESTER_FAULT, another slot active, a held lot, an unheld one, and too few sites. -/
theorem test_hyps_WalkStopsAtADueStep :
    let b := setup .running (walk (some 0) false) none
    let c := (cell b).ctx
    let other := { b with setup := { b.setup with active := none } }
    let few := { b with td := { b.td with sites := .enabled :: List.replicate 7 (.held .run) } }
    (b.lot? 40).map (fun r => (r.program, r.held, r.state, r.ending)) = some (211, false, .setup, false) ∧
    (b.setup.residentSlot? 211 = some 1 ∧ b.setup.active = some 1 ∧ b.setup.inFlight = none ∧ other.setup.active ≠ some 1) ∧
    ({ b.setup with slots := [] }.residentSlot? 211 = none ∧ (heldLot 40 .setup .operator).held = true) ∧
    (c.pins.testerFault = false ∧ b.testLot? = none ∧ b.td.touchdown = none ∧ c.cfg.minSites ≤ b.td.enabledCount ∧
      few.td.enabledCount < c.cfg.minSites) ∧
    ((b.walkFrom c none).lots.map (·.state) = [.inTest] ∧ (b.walkFrom c none).td.latch = false ∧
      (few.walkFrom c none).lots.map (·.hasHold .sites) = [true] ∧ (few.walkFrom c none).td.latch = true) ∧
    ((other.walkFrom c none).ports.toTester = [.select 1] ∧
      (other.walkFrom c none).setup.walk.map (·.deadline) = some (some 130000)) ∧
    ((b.walkFrom { c with pins := { c.pins with testerFault := true } } none).setup.walk.bind (·.fault)) =
      some (.testerFault, none) ∧
    b.setup.walk = some (walk (some 0) false) ∧ b.setup.engine = .running ∧ (walk (some 0) false).inStep = false ∧
    (walk (some 0) false).deferred = none ∧ (walk (some 0) false).fault = none ∧ (walk (some 0) false).count ≤ 16 ∧
    (((b.walkFrom (cell b).ctx (some 1)).setup.walk.map (fun w => (w.current, w.inStep))) = some (some 4, true)) ∧
    (((setup .running { walk (some 0) false with count := 16 } none).walkFrom (cell b).ctx (some 1)).setup.walk.map
      (·.fault)) = some (some (.loop, some 0)) := by decide +kernel

/-- A walk with nothing in flight, and one with a LOAD of the step in flight. -/
theorem test_hyps_AbortReturnsTheLotToTheQueue :
    let s := cell (setup .running (walk (some 1) true) none)
    let l := cell (setup .running (walk (some 0) true) (some (.load 2 211, .step)))
    s.parses = true ∧ s.blocks.setup.engine ≠ .idle ∧ s.blocks.setup.walk = some (walk (some 1) true) ∧
    ((s.blocks.lot? 40).map (·.ending)) = some false ∧ s.blocks.setup.inFlight = none ∧
    l.blocks.setup.inFlight = some (.load 2 211, .step) ∧ 2 ≤ l.blocks.setup.slots.length ∧
    runs (exec .abortSetup l) (fun t => decide (t.blocks.setup.slotState 2 = .invalid)) = true ∧
    (let v := setup .running (walk (some 0) true) (some (.evict 1, .step))
     let o := { setup .running (walk (some 0) true) (some (.evict 1, .operator)) with setup :=
       { (setup .running (walk (some 0) true) (some (.evict 1, .operator))).setup with thermal := ⟨some .room, .soaking, 7⟩ } }
     v.setup.slots[1 - 1]? = some ⟨.resident, some 211, some 50000⟩ ∧
     runs (exec .abortSetup (cell v)) (fun t => decide (t.blocks.setup.inFlight = none ∧ t.blocks.setup.active = none ∧
       t.blocks.setup.slots[0]? = some ⟨.invalid, some 211, some 50000⟩ ∧ t.blocks.ports.toTester = [])) = true ∧
     runs (exec .abortSetup (cell (setup .running (walk (some 3) true) (some (.check, .step))))) (fun t =>
       decide (t.blocks.setup.inFlight = none ∧ t.blocks.setup.slots = blocks.setup.slots)) = true ∧
     runs (exec .abortSetup (cell o)) (fun t => decide (t.blocks.setup.inFlight = some (.evict 1, .operator) ∧
       t.blocks.setup.thermal = ⟨some .room, .atSetpoint, 0⟩)) = true) := by decide +kernel

/-- Slot 2 EMPTY with the first and the last program number, and slot 1 RESIDENT. -/
theorem test_hyps_PreloadAndEvict : (cell blocks).parses = true ∧ (cell blocks).blocks.setup.engine = .idle ∧
    (cell blocks).blocks.testLot? = none ∧ (cell blocks).blocks.setup.inFlight = none ∧
    (cell blocks).blocks.setup.slots[2 - 1]? = some ⟨.empty, none, none⟩ ∧ (cell blocks).blocks.setup.resident 4095 = false ∧
    (cell blocks).blocks.setup.resident 1 = false ∧ (cell blocks).blocks.setup.slots[1 - 1]? = some ⟨.resident, some 211, some 50000⟩ ∧
    runs (exec (.preload 2 4095) (cell blocks)) (fun t => decide (t.blocks.setup.inFlight = some (.load 2 4095, .operator))) = true ∧
    runs (exec (.evict 1) (cell blocks)) (fun t => decide (t.blocks.setup.active = none)) = true := by decide +kernel

/-- A lot in test with no touchdown. -/
def inTest : Blocks := { blocks with lots := [testLot] }

/-- START with no touchdown, with a parked one, with no lot, a held lot, a fault line; STOP with and without a moving one. -/
theorem test_hyps_StartAndStopMoveTheLatch :
    (cell inTest).parses = true ∧ (cell inTest).blocks.testLot? = some testLot ∧ testLot.held = false ∧
    (cell inTest).pins.testerFault = false ∧ (cell inTest).pins.handlerFault = false ∧ (∀ t ∈ inTest.td.touchdown, t.stage ≠ .parked) ∧
    ((testing .parked).td.touchdown = some (touchdown .parked) ∧ (testing .parked).testLot?.map (·.held) = some false) ∧
    (cell blocks).blocks.testLot? = none ∧ (heldLot 40 .inTest .operator).held = true ∧
    ({ (cell inTest).pins with testerFault := true }).testerFault = true ∧
    (inTest.td.stopMark = false ∧ inTest.td.moving = false ∧ (testing .sorting).td.moving = true) ∧
    runs (exec .startCell (cell { testing .parked with td := { (testing .parked).td with sequence := 255 } }))
      (fun t => decide (t.blocks.td.sequence = 0)) = true := by decide +kernel

/-- The touchdown in TESTING at its deadline. -/
def late : State := { cell (testing .testing) with clock := 104000 }

/-- A touchdown in TESTING past its deadline, a parked one, one in SORTING; the main pass and the void pass. -/
theorem test_hyps_AbortVoidsTheUnits :
    let r := { testLot with account := some { account with inSockets := 2 } }
    (testing .testing).testLot? = some r ∧ r.account = some { account with inSockets := 2 } ∧ r.ending = false ∧
    (testing .testing).td.touchdown = some (touchdown .testing) ∧ ((testing .testing).lots.map (·.lot)).Nodup ∧
    (cell (testing .parked)).parses = true ∧ (touchdown .testing).deadline = some 104000 ∧
    (late.live = true ∧ 104000 ≤ late.clock ∧ runs (exec .tdTimeout late) (fun t =>
      decide ((t.blocks.lot? 40).bind (·.account) = some { account with voidOpen := 2 })) = true) ∧
    (touchdown .sorting).lotEmptyMark = false ∧ (testing .sorting).td.stopMark = false ∧
    runs (exec .abortTd (cell { testing .parked with
      lots := [{ testLot with state := .closing, account := some { account with inSockets := 2, phase := .voidPass, voidPass := .running } }] }))
      (fun t => decide ((t.blocks.lot? 40).bind (·.account) =
        some { account with voidFinal := 2, phase := .voidPass, voidPass := .running })) = true := by decide +kernel

/-- Sites 1 and 4 ENABLED, site 3 HELD; with a touchdown, without a lot, with one in test and with one in SETUP (R137). -/
theorem test_hyps_SiteRequestsMoveTheSite :
    let held := fun (b : Blocks) => { b with td := { b.td with sites := b.td.sites.set 2 (.held .operator) } }
    (cell blocks).parses = true ∧ blocks.td.site 4 ≠ .fittedOff ∧ (testing .testing).td.touchdown.isSome = true ∧
    (blocks.td.touchdown = none ∧ (held blocks).td.site 3 ≠ .enabled ∧ (held blocks).td.site 3 ≠ .fittedOff ∧ blocks.testLot? = none) ∧
    ((held inTest).testLot? = some testLot ∧ testLot.account = some account ∧ (inTest.lots.map (·.lot)).Nodup) ∧
    blocks.td.site 1 = .enabled ∧ (testLot.ending = false ∧ testLot.hasHold .sites = false) ∧
    runs (exec (.siteDisable 4) (cell inTest)) (fun t => decide (t.blocks.td.latch = true ∧ (t.blocks.lot? 40).map (·.held) = some false)) = true ∧
    runs (exec (.siteDisable 1) (cell { inTest with td := { inTest.td with sites := [.enabled, .enabled] ++ List.replicate 6 (.held .run) } }))
      (fun t => (t.blocks.lot? 40).any (·.hasHold .sites)) = true ∧
    (let back := { setup .running (walk (some 1) true) none with
       lots := [{ lot 40 .setup with account := some { account with failRun := List.replicate 8 7 } }] }
     (blocks.cellLot? = none ∧ back.cellLot?.map (·.state) = some .setup) ∧
     runs (exec (.siteEnable 3) (cell (held back))) (fun t => decide (((t.blocks.lot? 40).bind (·.account)).map (·.failRun) =
       some [7, 7, 0, 7, 7, 7, 7, 7])) = true) := by decide +kernel

theorem test_hyps_HoldRequestRaisesOperator : (cell blocks).parses = true ∧ (cell blocks).blocks.lot? 1 = none ∧
    (cellWith [outbound 1]).blocks.lot? 1 = some (outbound 1) ∧ (outbound 1).state = .outbound ∧ (inbound 1).state = .inbound ∧
    ((heldLot 4294967295 .queued .operator).hasHold .operator = true ∧ (heldLot 4294967295 .queued .operator).ending = false) ∧
    (testLot.state = .inTest ∧ testLot.hasHold .operator = false ∧ testLot.ending = false) ∧
    runs (exec (.holdLot 40) (cell inTest)) (fun t => decide (t.blocks.td.latch = true)) = true := by decide +kernel

/-- A hold of family scope. -/
def wideHold (k : HoldKind) : Hold := { hold k with scope := .family }

/-- A lot in SETUP waits held at the chain end: it enters IN_TEST, with a SITES hold when too few sites are ENABLED, or selects its
program again (R103). -/
theorem test_hyps_ResumeTakesTheHoldOff_setup :
    let waiting := { setup .running { walk none false with deadline := none } none with
      lots := [{ heldLot 40 .setup .operator with account := some account }] }
    let few := { waiting with td := { waiting.td with sites := .enabled :: List.replicate 7 (.held .run) } }
    let lost := { waiting with setup := { waiting.setup with active := none } }
    let after := fun (b : Blocks) => exec (.dispose 40 (some .operator) (some .resume)) (cell b)
    (waiting.setup.waitsAtEnd = true ∧ waiting.setup.active = some 1 ∧ waiting.setup.residentSlot? 211 = some 1 ∧
      waiting.testLot? = none ∧ waiting.td.touchdown = none ∧ (waiting.lots.map (·.program)) = [211]) ∧
    runs (after waiting) (fun t => decide ((t.blocks.lot? 40).map (fun r => (r.state, r.held)) = some (.inTest, false) ∧
      t.blocks.setup.engine = .idle ∧ t.blocks.td.latch = false)) = true ∧
    runs (after few) (fun t => decide ((t.blocks.lot? 40).map (fun r => (r.state, r.holds.map (·.trigger))) =
      some (.inTest, [some (1, 2)]) ∧ t.blocks.td.latch = true)) = true ∧
    runs (after lost) (fun t => decide ((t.blocks.lot? 40).map (·.state) = some .setup ∧
      t.blocks.setup.inFlight = some (.select 1, .chainEnd))) = true := by decide +kernel

/-- The last hold of family scope of a lot with a local entry: alone on the list, with another station's entry of the family, and
of a lot in test; another hold of family scope that stays (R158). -/
theorem test_hyps_ResumeTakesTheHoldOff_family :
    let wide := fun (st : LotState) ks => { lot 40 st with holds := (ks : List HoldKind).map wideHold }
    let b := fun r es => listing { blocks with lots := [(r : LotRecord)] } es
    let after := fun (b : Blocks) p => runs (exec (.dispose 40 (some .yield) (some .resume)) (cell b)) p
    let other := entry 70115 41 9 .confirmed
    let inTest := { wide .inTest [.yield] with account := some account }
    (soundly (b (wide .queued [.yield]) [localEntry]) = true ∧ soundly (b inTest [localEntry]) = true) ∧
    after (b (wide .queued [.yield]) [localEntry]) (fun t => decide (t.blocks.family.entries = [] ∧
      t.blocks.family.clearDue = [(70115, 40)] ∧ (t.blocks.lot? 40).map (·.held) = some false)) = true ∧
    after (b (wide .queued [.yield]) [other, localEntry]) (fun t => decide (t.blocks.family.entries = [other] ∧
      (t.blocks.lot? 40).map (fun r => r.holds.map (·.kind)) = some [.family])) = true ∧
    after (b inTest [localEntry]) (fun t => decide (t.blocks.family.entries = [] ∧ t.blocks.td.latch = false)) = true ∧
    after (b (wide .queued [.bin, .yield]) [localEntry]) (fun t => decide (t.blocks.family.entries = [localEntry])) = true := by
  decide +kernel

/-- A held lot that waits; the last hold of a lot in test without a touchdown and with a parked one; THERMAL of a lot in test
without and with a parked one; SETUP of a lot whose engine is FAULTED, with nothing in flight and with a command of the operator;
another hold of a lot in SETUP. -/
theorem test_hyps_ResumeTakesTheHoldOff :
    let r := heldLot 4294967295 .awaiting .yield
    let b := { blocks with lots := [r] }
    (cell b).parses = true ∧ b.lot? 4294967295 = some r ∧ r.state = .awaiting ∧ r.hasHold .yield = true ∧ r.ending = false ∧
    r.familyScope = false ∧ (cell b).image.minSites ≤ b.td.enabledCount ∧
    (let held := fun k x => { (x : Blocks) with lots := x.lots.map (fun y => { y with holds := [hold k] }) }
     let faulted := held .setup (setup .faulted (walk none false) none)
     ((held .yield inTest).testLot?.map (fun y => (y.state, y.holds)) = some (.inTest, [hold .yield]) ∧
       inTest.td.touchdown = none ∧ (testing .parked).td.touchdown = some (touchdown .parked)) ∧
     ((faulted.lot? 40).map (·.state) = some .setup ∧ faulted.setup.engine = .faulted ∧ faulted.setup.inFlight = none ∧
       (setup .faulted (walk none false) (some (.load 2 300, .operator))).setup.inFlight.isSome = true ∧
       (held .operator (setup .running (walk (some 1) true) none)).setup.waitsAtEnd = false) ∧
     (r.inCustody = true ∧ (held .setup faulted).testLot? = none) ∧
     runs (exec (.dispose 40 (some .yield) (some .resume)) (cell (held .yield (testing .parked)))) (fun t =>
       decide (t.blocks.td.latch = false ∧ t.blocks.ports.toTester = [.tdStart 10 [1, 2]])) = true ∧
     runs (exec (.dispose 40 (some .thermal) (some .resume)) (cell (held .thermal (testing .parked)))) (fun t =>
       decide ((t.blocks.lot? 40).map (·.state) = some .setup ∧ t.blocks.setup.walk.map (·.current) = some (some 4) ∧
         ((t.blocks.lot? 40).bind (·.account)) = some { account with voidOpen := 2 } ∧
         t.blocks.td.touchdown.map (·.stage) = some .sorting)) = true ∧
     runs (exec (.dispose 40 (some .setup) (some .resume)) (cell faulted)) (fun t =>
       decide (t.blocks.setup.engine = .running ∧ t.blocks.setup.walk.map (fun w => (w.current, w.fault)) = some (some 4, none))) = true) ∧
    runs (exec (.dispose 4294967295 (some .yield) (some .resume)) (cell b))
      (fun t => decide ((t.blocks.lot? 4294967295).map (fun x => (x.suppressYield, x.disposedHolds)) = some (true, 1))) = true := by
  decide +kernel

/-- One record for each refusal. -/
theorem test_hyps_DispositionRefusalOrder :
    let few := fun (b : Blocks) => { b with td := { b.td with sites := .enabled :: List.replicate 7 (.held .run) } }
    (cellWith [heldLot 1 .awaiting .yield]).parses = true ∧
    (cellWith [heldLot 1 .awaiting .yield]).blocks.lot? 1 = some (heldLot 1 .awaiting .yield) ∧
    (heldLot 1 .awaiting .yield).state.custody = true ∧ ({ heldLot 1 .awaiting .yield with ending := true }).ending = true ∧
    (heldLot 1 .awaiting .yield).hasHold .bin = false ∧ (heldLot 1 .awaiting .family).hasHold .family = true ∧
    ((heldLot 1 .awaiting .recon).hasHold .recon = true ∧ (heldLot 1 .awaiting .yield).hasHold .yield = true) ∧
    (heldLot 1 .outbound .yield).state = .outbound ∧ ((few blocks).td.enabledCount = 1 ∧ image.minSites = 2) ∧
    runs (exec (.dispose 1 (some .recon) (some .resume)) (cellWith [heldLot 1 .awaiting .recon]))
      (fun t => decide (t.blocks.op.sending = some (.reply (.no .badValue)))) = true ∧
    runs (exec (.dispose 1 (some .sites) (some .resume)) (cell (few { blocks with lots := [heldLot 1 .awaiting .sites] })))
      (fun t => decide (t.blocks.op.sending = some (.reply (.no .stillShort)))) = true := by decide +kernel

/-- Lot 40 waits for its reconciliation: declared 20, placed 18, 15 good, 2 rejects, 1 void final (06). -/
def reconLot : LotRecord :=
  { lot 40 .closing with
    holds := [hold .recon]
    account := some { Account.fresh 20 with
      placedMain := 18, bins := [15, 0, 2] ++ List.replicate 12 0, voidFinal := 1, phase := .voidPass, voidPass := .ended } }

theorem test_hyps_AcceptCountClosesTheInsertion :
    let b := { blocks with lots := [reconLot] }
    (cell b).parses = true ∧ b.lot? 40 = some reconLot ∧ b.testLot? = some reconLot ∧ reconLot.state = .closing ∧
    reconLot.account.isSome = true ∧ reconLot.holds = [hold .recon] ∧ reconLot.ending = false ∧ b.td.touchdown = none ∧
    (∀ a ∈ reconLot.account, a.voidPass ≠ .running ∧ 0 < a.good ((cell b).ctx.recipe reconLot.product).goodBins) ∧
    runs (exec (.dispose 40 (some .recon) (some .acceptCount)) (cell b))
      (fun t => decide ((t.blocks.lot? 40).map (·.summaries) = some [⟨1, 5, 20, -2, 15, 2, 1, 0⟩])) = true := by decide +kernel

/-- A lot out of test with a local entry, one in SETUP with a walk, one in test with its units in the sockets; one in test with a
PARKED touchdown, with none, and with one in SORTING that carries the LOT_EMPTY mark. -/
theorem test_hyps_ScrapEndsTheLot :
    let out := listing { blocks with lots := [heldLot 40 .finished .operator] } [localEntry]
    let r := { heldLot 40 .inTest .operator with account := some { account with inSockets := 2 } }
    let b := { testing .testing with lots := [r] }
    (cell out).parses = true ∧ out.lot? 40 = some (heldLot 40 .finished .operator) ∧
    (heldLot 40 .finished .operator).hasHold .operator = true ∧ out.family.entry? 70115 40 = some localEntry ∧
    (cell b).parses = true ∧ b.lot? 40 = some r ∧ b.testLot? = some r ∧ b.td.touchdown = some (touchdown .testing) ∧
    (touchdown .testing).stage = .testing ∧ r.ending = false ∧ b.family.entry? 70115 40 = none ∧ (b.lots.map (·.lot)).Nodup ∧
    runs (exec (.dispose 40 (some .operator) (some .scrap)) (cell out)) (fun t => decide (t.blocks.lots = [])) = true ∧
    runs (exec (.dispose 40 (some .operator) (some .scrap)) (cell b)) (fun t => (t.blocks.lot? 40).any (·.ending)) = true ∧
    (let parked := { testing .parked with lots := [r] }
     let done := { inTest with lots := [{ r with account := some account }] }
     let sorting := { done with td := { done.td with touchdown := some { touchdown .sorting with lotEmptyMark := true } } }
     (parked.td.touchdown = some (touchdown .parked) ∧ (r.account.map (·.inSockets)) = some (touchdown .parked).active.length) ∧
     (account.inSockets = 0 ∧ done.td.touchdown = none ∧ sorting.td.touchdown.map (·.stage) = some .sorting) ∧
     runs (exec (.dispose 40 (some .operator) (some .scrap)) (cell parked)) (fun t => decide (t.blocks.lots = [] ∧
       t.blocks.ports.toHandler = [.sort [.scrap, .scrap, .void, .none, .none, .none, .none, .none], .lotEnd])) = true ∧
     runs (exec (.dispose 40 (some .operator) (some .scrap)) (cell done)) (fun t => decide (t.blocks.lots = [] ∧
       t.blocks.ports.toHandler = [.lotEnd])) = true ∧
     runs (exec (.dispose 40 (some .operator) (some .scrap)) (cell sorting)) (fun t => decide (t.blocks.lots = [] ∧
       t.blocks.td.touchdown.map (fun x => (x.kind, x.lotEmptyMark)) = some (.orphan, true))) = true) := by
  decide +kernel

/-- A lot that is elsewhere: with one pending, while WITHDRAWN, with every slot taken, with slot 1 EMPTY. -/
theorem test_hyps_RemoteDispositionIsSent :
    let q : RemoteDisposition := ⟨8, .yield, .resume, 110000, 1⟩
    (cell blocks).parses = true ∧ (cell blocks).blocks.lot? 4294967295 = none ∧
    ({ blocks with remote := some q }).remote.isSome = true ∧ blocks.remote = none ∧
    ({ blocks.link with state := .withdrawn }).state = .withdrawn ∧ blocks.link.state ≠ .withdrawn ∧
    ((allSlots blocks).link.requests = [] ∧ ∀ x ∈ (allSlots blocks).link.slots, x ≠ none) ∧ blocks.link.slots[0]? = some none ∧
    runs (exec (.dispose 4294967295 (some .yield) (some .resume)) (cell blocks))
      (fun t => decide ((t.blocks.link.slots.head?.join.map (·.identifier)) = some 835589)) = true := by decide +kernel

theorem test_hyps_PurgeRemovesAStaleEntry :
    let b := listing blocks [entry 16777215 4294967295 62 .stale, entry 1 1 1 .confirmed]
    (cell b).parses = true ∧ b.family.entry? 16777215 4294967295 = some (entry 16777215 4294967295 62 .stale) ∧
    b.family.entry? 1 1 = some (entry 1 1 1 .confirmed) ∧ (entry 1 1 1 .confirmed).state ≠ .stale ∧ b.family.entry? 2 2 = none ∧
    (∀ r ∈ b.lots, r.familyScope = false) ∧
    runs (exec (.purge 16777215 4294967295) (cell b)) (fun t => decide (t.blocks.family.entries.length = 1)) = true := by
  decide +kernel

/-- A SATURATED list with a STALE entry and one that stays. -/
def saturatedList (b : Blocks) : Blocks :=
  let l := listing b [entry 1 2 9 .stale, entry 1 3 9 .confirmed]
  { l with family := { l.family with saturated := true } }

/-- An entry leaves while SATURATED: a slot EMPTY, every slot taken, a window running. -/
theorem test_hyps_PurgeRemovesAStaleEntry_rollcall :
    let b := saturatedList blocks
    let running := { b with family := { b.family with window := some 105000 } }
    b.family.entry? 1 2 = some (entry 1 2 9 .stale) ∧ b.family.saturated = true ∧ b.family.rollcallDue = false ∧ b.family.window = none ∧
    (b.link.state ≠ .withdrawn ∧ b.link.requests = [] ∧ b.link.slots[0]? = some none) ∧ running.family.window.isSome = true ∧
    runs (exec (.purge 1 2) (cell b)) (fun t => decide (t.blocks.family.rollcallDue = true ∧ t.blocks.family.rollcallRetry = none ∧
      t.blocks.family.entries = [entry 1 3 9 .confirmed] ∧ (t.blocks.link.slots.head?.join.map (·.frame.data)) = some .rollcall)) = true ∧
    runs (exec (.purge 1 2) (cell (saturatedList (allSlots blocks)))) (fun t =>
      decide (t.blocks.family.rollcallRetry = some 101000)) = true ∧
    runs (exec (.purge 1 2) (cell running)) (fun t => decide (t.blocks.family.rollcallDue = false)) = true := by decide +kernel

/-- Lots 40 and 41 lack a local entry: the lower one takes the freed place, or the entry of its key becomes local. -/
theorem test_hyps_PurgeRemovesAStaleEntry_place :
    let wants := fun (l f : Nat) => { heldLot l .finished .yield with family := f, holds := [{ hold .yield with scope := .family }] }
    let b := fun es => { listing blocks es with lots := [wants 40 7, wants 41 8] }
    let other := (List.range 15).map (fun i => entry 1 (i + 3) 9 .confirmed)
    let made : FamilyEntry := ⟨7, 40, 5, true, .confirmed, 100000, true⟩
    let after := fun es rest => runs (exec (.purge 1 2) (cell (b es))) (fun t =>
      decide (t.blocks.family.entries.map (fun e => { e with holdDue := e.isLocal }) = rest))
    ((b (entry 1 2 9 .stale :: other)).family.entries.length = 16 ∧
      (b []).lots.map (fun r => (r.lot, r.inCustody && r.familyScope && !r.ending)) = [(40, true), (41, true)]) ∧
    after (entry 1 2 9 .stale :: other) (other ++ [made]) = true ∧
    after [entry 1 2 9 .stale, entry 7 40 9 .confirmed] [made] = true := by decide +kernel

theorem test_hyps_RestartWaitsForItsReply : (cell blocks).parses = true ∧ (cell blocks).blocks.op.sending = none ∧
    (cell blocks).blocks.op.replies = [] ∧ (cell blocks).blocks.op.waiting = none ∧
    (let o := fun n rs => lineAt { OperatorLine.powerOn with
       sending := some (.reply .ok), restarting := true, beforeReset := n, replies := rs }
     (o 1 [.no .busy]).lineOpen = true ∧ (o 2 [.ok]).blocks.op.replies = .ok :: [] ∧
     runs (exec .outgoingLineSent (o 1 [.no .busy])) (fun t => t.blocks.op.restartReady) = true ∧
     runs (exec .outgoingLineSent (o 2 [.ok])) (fun t => decide (t.blocks.op.sending = some (.reply .ok) ∧
       t.blocks.op.restartReady = false)) = true) := by decide +kernel

/-- The handler port ignores what follows a discarded message. -/
def deaf : Blocks := { testing .sorting with ports := { blocks.ports with handlerIgnoring := true } }

theorem test_hyps_LevelsAndFraming :
    runs (exec (.portLineIdle .handler) { cell deaf with run := .configFault .sum }) (fun t => decide (t.blocks = testing .sorting)) = true ∧
    (cell blocks).live = true ∧ (cell blocks).pins.kitLines ≠ 63 ∧ State.reset.live = false ∧
    (cell blocks).takesPort .tester = true ∧ (cell blocks).takesPort .handler = true ∧
    deaf.ports.ignoring .handler = true ∧ Instr.port? .sorted = some .handler ∧
    runs (exec .sorted (cell deaf)) (fun t => decide (t = cell deaf)) = true := by
  decide +kernel

/-- No step in flight; a LOAD of the step in flight; a step with nothing at the tester in flight; a touchdown in TESTING in the main
pass; a preload and an EVICT of the operator; a LOAD, an EVICT and a SELECT of the step at each line. -/
theorem test_hyps_FaultLinesSetTheLatch :
    let b := setup .running (walk (some 1) true) none
    let l := setup .running (walk (some 0) true) (some (.load 2 211, .step))
    (cell b).live = true ∧ (cell b).pins.testerFault = false ∧ (cell b).pins.handlerFault = false ∧
    (blocks.setup.inStep = false ∧ blocks.setup.inFlight = none ∧ blocks.td.touchdown = none) ∧
    (l.setup.walk = some (walk (some 0) true) ∧ (walk (some 0) true).inStep = true ∧ l.setup.inFlight = some (.load 2 211, .step)) ∧
    (b.setup.walk = some (walk (some 1) true) ∧ b.setup.inFlight = none ∧ (walk (some 1) true).deferred = none ∧
      ((b.lot? 40).map (fun r => (r.state, r.ending, r.hasHold .setup))) = some (.setup, false, false)) ∧
    runs (exec .handlerFault (cell b)) (fun t => decide (t.blocks.setup.thermal.phase = .unknown ∧ t.blocks.setup.engine = .faulted)) = true ∧
    runs (exec .handlerFault (cell l)) (fun t => decide (t.blocks.setup.engine = .running)) = true ∧
    (let x := testing .testing
     (x.setup.inStep = false ∧ x.setup.inFlight = none ∧ (x.testLot?.map (fun r => (r.lot, r.ending, r.account.map (·.phase)))) =
       some (40, false, some .main) ∧ x.td.touchdown = some (touchdown .testing) ∧ (x.lots.map (·.lot)).Nodup) ∧
     runs (exec .testerFault (cell x)) (fun t => decide (((t.blocks.lot? 40).bind (·.account)).map (fun a => (a.inSockets, a.voidOpen)) =
       some (0, 2) ∧ t.blocks.td.latch = true ∧ t.blocks.td.touchdown.map (fun y => (y.stage, y.deadline)) = some (.sorting, none))) = true) ∧
    (let op := fun c => { blocks with setup := { blocks.setup with inFlight := some (c, Origin.operator), operatorDeadline := some 130000 } }
     ((op (.load 2 300)).setup.walk = none ∧ (op (.load 2 300)).setup.inFlight = some (.load 2 300, .operator) ∧
       (op (.evict 2)).setup.inFlight = some (.evict 2, .operator)) ∧
     runs (exec .testerFault (cell (op (.load 2 300)))) (fun t => decide (t.blocks.ports.toTester = [.cancel 2] ∧
       t.blocks.op.sending = some (.notice (.slot 2 .empty none) none))) = true ∧
     runs (exec .testerFault (cell (op (.evict 2)))) (fun t => decide (t.blocks.ports.toTester = [] ∧ t.blocks.setup.inFlight = none)) = true) ∧
    (let st := fun c => setup .running (walk (some 0) true) (some (c, .step))
     let late := setup .running { walk (some 0) true with deferred := some .handlerFault } (some (.load 2 211, .step))
     ((st (.select 1)).setup.walk = some (walk (some 0) true) ∧ 2 ≤ (st (.select 1)).setup.slots.length ∧
       late.setup.walk.bind (·.deferred) = some .handlerFault) ∧
     runs (exec .testerFault (cell l)) (fun t => decide (t.blocks.setup.slotState 2 = .invalid ∧ t.blocks.ports.toTester = [] ∧
       t.blocks.setup.walk.bind (·.fault) = some (.testerFault, some 0))) = true ∧
     runs (exec .testerFault (cell late)) (fun t => decide (t.blocks.setup.walk.bind (·.fault) = some (.handlerFault, some 0))) = true ∧
     runs (exec .handlerFault (cell (st (.select 1)))) (fun t => decide (t.blocks.setup.slotState 1 = .resident ∧
       t.blocks.setup.walk.bind (·.fault) = some (.handlerFault, some 0))) = true) := by decide +kernel

/-- An OBJECT and a BID of station 5, and its HOLD. -/
def objectFrame : Frame := ⟨.release, 1, .object 1 1 9⟩
def bidFrame : Frame := ⟨.dispatch, 2, .bid 2 9 100⟩

/-- Two PENDING frames, an OBJECT in slot 3 before a BID in slot 1. -/
def twoFrames : Blocks :=
  { blocks with link := { blocks.link with
      slots := [some ⟨bidFrame, frameIdentifier 5 bidFrame.data, 1, false, false⟩, none,
        some ⟨objectFrame, frameIdentifier 5 objectFrame.data, 2, false, false⟩, none, none, none], placements := 2 } }

/-- The frame of `sending` stands on the wire in slot 1. -/
theorem sends_first (b : Blocks) (f : Frame) : (sending b f true).link.sends 0 ⟨f, frameIdentifier 5 f.data, 1, true, false⟩ :=
  ⟨rfl, rfl, fun j h => absurd h (Nat.not_lt_zero j)⟩

/-- A lot that has been awarded to station 9. -/
def awarded : LotRecord :=
  { lot 1 .awarded with peer := some 9, awardDue := true, dossierSend := some .waiting, deadline := some ⟨.acceptTimeout, 110000⟩ }

/-- Offered lot 1, with its OFFER in its slot. -/
def offered : LotRecord :=
  { lot 1 .offered with deadline := some ⟨.bidWindow, 103000⟩, offer := some ⟨.pending, none, none⟩ }

/-- Close to QUIET: an OBJECT on the wire, the OFFER of lot 1 and a BID for lot 2 PENDING, and a bid record for lot 8 too. -/
def nearQuiet (tx rx : Nat) : Blocks :=
  let slot := fun (f : Frame) (n : Nat) (w : Bool) => some (SlotEntry.mk f (frameIdentifier 5 f.data) n w false)
  { blocks with
    lots := [offered]
    bids := [⟨2, 9, 70115, 100, 5000, none⟩, ⟨8, 9, 70115, 100, 5000, none⟩]
    link := { blocks.link with
      slots := [slot objectFrame 1 true, slot ⟨.dispatch, 1, .offer ⟨1, 7, 70115, 1, 1, 20, 12, 2, 211⟩⟩ 2 false, slot bidFrame 3 false,
        none, none, none]
      txErr := tx, rxErr := rx, state := .warned } }

/-- The OFFER and the BID have gone: lot 1 awaits its re-offer time, the bid record of lot 8 alone is left. -/
def quieted (t : State) : Bool :=
  decide (t.blocks.link.state = .quiet ∧ t.blocks.bids.map (·.lot) = [8] ∧ t.blocks.link.slots.drop 1 = List.replicate 5 none ∧
    (t.blocks.lot? 1).map (fun r => (r.state, r.deadline)) = some (.awaiting, some ⟨.reoffer, 160000⟩))

theorem test_hyps_SendAttemptsAndTheirEnds :
    let q := fun (b : Blocks) (tx : Nat) (st : LinkState) => { b with link := { b.link with txErr := tx, state := st } }
    (cell twoFrames).live = true ∧ twoFrames.link.state ≠ .withdrawn ∧ twoFrames.link.up = true ∧
    (∀ x ∈ twoFrames.link.slots, ∀ y ∈ x, y.onWire = false) ∧
    (frameIdentifier 5 objectFrame.data < frameIdentifier 5 bidFrame.data) ∧ (∀ x ∈ blocks.link.slots, x = none) ∧
    (linkStateOf (min 255 (73 + 6)) 0 = .normal ∧ (q blocks 73 .normal).link.state ≠ .quiet) ∧
    (linkStateOf 144 0 = .quiet ∧ (q (sending blocks objectFrame true) 144 .quiet).link.state = .quiet ∧ objectFrame.isOfferOrBid = false) ∧
    linkStateOf 0 (min 255 (78 + 1)) = .normal ∧ linkStateOf 0 (min 255 (79 + 1)) = .warned ∧ LinkCtl.powerOn.up = false ∧
    (let w := { blocks with
       link := { LinkCtl.powerOn with joined := false }, family := { blocks.family with rollcallDue := true } }
     (w.link.state ≠ .withdrawn ∧ w.family.rollcallRetry = none ∧ w.inSlot Frame.isRollcall = false ∧ w.link.requests = [] ∧
       w.link.slots[0]? = some none ∧ blocks.family.rollcallDue = false) ∧
     runs (exec .joinLine (cell w)) (fun t => decide ((t.blocks.link.slots.head?.join.map (·.frame.data)) = some .rollcall ∧
       t.blocks.link.joined = true)) = true) ∧
    runs (exec .receiveError (cell (q blocks 144 .quiet))) (fun t => decide (t.blocks.link.rxErr = 1)) = true ∧
    runs (exec (.transmitError true) (cell (sending blocks objectFrame true))) (fun t => decide (t.blocks.link.txErr = 6 ∧
      t.blocks.link.signals = [.errorActive])) = true ∧
    (linkStateOf (min 255 (134 + 6)) 0 = .quiet ∧ linkStateOf 0 (min 255 (139 + 1)) = .quiet ∧ objectFrame.isOfferOrBid = false ∧
      (nearQuiet 134 0).op.notices.length < 16) ∧
    runs (exec (.transmitError false) (cell (nearQuiet 134 0))) quieted = true ∧
    runs (exec .receiveError (cell (nearQuiet 0 139))) quieted = true ∧
    runs (exec .sendAttempt (cell twoFrames)) (fun t => decide ((t.blocks.link.slots[2]?.join.map (·.onWire)) = some true)) = true ∧
    runs (exec (.transmitError true) (cell (q (sending blocks objectFrame true) 144 .quiet)))
      (fun t => decide (t.blocks.link.txErr = 144)) = true := by decide +kernel

theorem test_hyps_FrameSentIsTakenByItsOwner :
    (cell (sending blocks objectFrame true)).live = true ∧ linkStateOf (80 - 1) 0 ≠ .warned ∧ linkStateOf (0 - 1) 0 = .normal ∧
    (offered.state = .offered ∧ (offered.offer.map (·.frame)) = some .pending) ∧ ({ blocks with lots := [] }).lot? 2 = none ∧
    (awarded.state = .awarded ∧ awarded.awardDue = true ∧ awarded.held = false) ∧
    (({ lot 1 .queued with awardDue := true }).state = .queued) ∧
    ({ awarded with dossierSend := some (.sending 2) }).dossierSend = some (.sending 2) ∧
    ((⟨1, .take, 9⟩ : Answer).frame = ⟨.custody, 1, .take 1 9⟩ ∧ AnswerKind.take ≠ .decline) ∧
    blocks.family.cursor = none ∧ ({ blocks.family with rollcallDue := true }).rollcallDue = true ∧
    (let own := fun best => { offered with offer := some ⟨.sent, some (.pending, 60), best⟩ }
     let told := fun best => ((exec .frameSent (cell (sending { blocks with lots := [own best], bids := [⟨1, 5, 70115, 60, 100000, none⟩] }
       ⟨.dispatch, 1, .bid 1 5 60⟩ true))))
     ((own none).offer.bind (·.own)).map (·.2) = some 60 ∧
     runs (told (some (60, 4))) (fun t => decide (((t.blocks.lot? 1).bind (·.offer)) = some ⟨.sent, some (.sent, 60), some (60, 4)⟩ ∧
       t.blocks.bids.map (·.sentAt) = [some 100000])) = true ∧
     runs (told (some (60, 9))) (fun t => decide (((t.blocks.lot? 1).bind (·.offer)).bind (·.best) = some (60, 5))) = true) ∧
    (({ awarded with holds := [hold .operator] }).held = true ∧
     runs (exec .frameSent (cell (sending { blocks with lots := [{ awarded with holds := [hold .operator] }] } ⟨.dispatch, 1, .award 1 9⟩ true)))
       (fun t => decide ((t.blocks.lot? 1).bind (·.dossierSend) = some .stopped)) = true) ∧
    ({ lot 1 .releasing with intent := some .pending }).intent = some .pending ∧
    (let ring := { blocks with release := ⟨[⟨30, 70115, 14, 90000, true, none, some 1⟩, ⟨30, 70115, 14, 95000, true, none, some 2⟩], []⟩ }
     runs (exec .frameSent (cell (sending ring ⟨.release, 30, .shipped 30 70115 14⟩ true)))
       (fun t => decide (t.blocks.release.ring.map (·.due) = [false, true])) = true) ∧
    (let marked := fun (b : Blocks) => { b with link := { b.link with
       slots := b.link.slots.map (fun x => x.map (fun y => { y with cancelMark := true })) } }
     runs (exec .frameSent (cell (marked (sending { blocks with lots := [{ lot 1 .releasing with intent := some .pending }] }
       ⟨.release, 1, .intent 1 70115⟩ true)))) (fun t => decide ((t.blocks.lot? 1).bind (·.intent) = some .sent)) = true ∧
     runs (exec .frameSent (cell (marked (sending { blocks with lots := [{ awarded with awardDue := true }] } ⟨.dispatch, 1, .award 1 9⟩ true))))
       (fun t => decide ((t.blocks.lot? 1).map (·.awardDue) = some true)) = true) ∧
    runs (exec .frameSent (cell (sending { blocks with lots := [offered] } ⟨.dispatch, 1, .offer ⟨1, 7, 70115, 1, 1, 20, 12, 2, 211⟩⟩ true)))
      (fun t => decide ((t.blocks.lot? 1).bind (·.deadline) = some ⟨.bidWindow, 103000⟩ ∧ t.blocks.link.slots[0]? = some none)) = true ∧
    runs (exec .frameSent (cell (sending { blocks with lots := [awarded] } ⟨.dispatch, 1, .award 1 9⟩ true)))
      (fun t => decide ((t.blocks.lot? 1).bind (·.dossierSend) = some (.sending 1))) = true := by decide +kernel

/-- The HOLD of lot 40 on the wire, the answer cursor at `cu`, some entries in the list. -/
def answeredAt (cu : Cursor) (es : List FamilyEntry) (mark : Bool) : Blocks :=
  let b := sending (listing blocks es) ⟨.family, 40, .hold 70115 40 5⟩ true
  { b with
    family := { b.family with cursor := some cu }
    link := { b.link with slots := b.link.slots.map (fun y => y.map (fun e => { e with cancelMark := mark })) } }

/-- The outcome of a HOLD told to the cursor: its answer sent; that of an earlier walk; that of a removed entry, sent and
cancelled; one of another key. The next answer takes a slot at once. -/
theorem test_hyps_FrameSentIsTakenByItsOwner_cursor :
    let next := { localEntry with lot := 41 }
    let stands := fun (n : Nat) => fun (t : State) => decide (t.blocks.family.cursor = some ⟨70115, n, true, none, none⟩ ∧
      (t.blocks.link.slots.head?.join.map (·.frame.data)) = some (.hold 70115 n 5))
    let sent := fun cu es => exec .frameSent (cell (answeredAt cu es false))
    let lost := fun cu es => exec .arbitrationLost (cell (answeredAt cu es true))
    let earlier : Cursor := ⟨70115, 40, false, some (70115, 40), none⟩
    runs (sent ⟨70115, 40, true, none, none⟩ [localEntry, next]) (stands 41) = true ∧
    runs (sent ⟨70115, 40, true, none, none⟩ [localEntry]) (fun t => decide (t.blocks.family.cursor = none)) = true ∧
    runs (sent earlier [localEntry, next]) (stands 40) = true ∧ runs (lost earlier [localEntry, next]) (stands 40) = true ∧
    runs (sent ⟨70115, 40, true, none, some 0⟩ [next]) (stands 41) = true ∧
    runs (lost ⟨70115, 40, true, none, some 0⟩ [next]) (stands 41) = true ∧
    runs (sent ⟨70115, 41, false, none, none⟩ [localEntry, next]) (stands 41) = true ∧
    runs (lost ⟨70115, 41, false, none, none⟩ [localEntry, next]) (stands 41) = true := by decide +kernel

/-- A frame sent, and one received, bring the link state down with its notice. -/
theorem test_hyps_link_state_falls :
    let b := { sending blocks objectFrame true with link := { (sending blocks objectFrame true).link with txErr := 80, state := .warned } }
    let q := { blocks with link := { blocks.link with rxErr := 140, state := .quiet } }
    linkStateOf (80 - 1) 0 = .normal ∧ linkStateOf 0 (140 - 1) = .warned ∧ q.link.up = true ∧
    runs (exec .frameSent (cell b)) (fun t => decide (t.blocks.link.state = .normal ∧
      t.blocks.op.sending = some (.notice (.linkState .normal 79 0) none))) = true ∧
    runs (exec (.frameDiscarded 3 3 9) (cell q)) (fun t => decide (t.blocks.link.state = .warned ∧
      t.blocks.op.sending = some (.notice (.linkState .warned 0 139) none))) = true := by decide +kernel

/-- One lot in each state a withdrawal changes, tx_err at 224; and the station WITHDRAWN. -/
def failing : Blocks :=
  let b := sending { blocks with lots := [offered, { lot 2 .awarded with peer := some 9 }, lot 3 .inboundPending,
    { lot 4 .queued with awardDue := true, arrival := some 1 }, { lot 6 .releasing with intent := some .sent }] } objectFrame true
  { b with link := { b.link with txErr := 224, state := .quiet } }

/-- A WITHDRAWN station with a local entry and one of another station. -/
def away : Blocks :=
  { listing { blocks with lots := [testLot] } [localEntry, entry 1 2 9 .confirmed] with
    link := { LinkCtl.powerOn with state := .withdrawn, txErr := 234, rejoinAcc := 4000 } }

theorem test_hyps_WithdrawalAndRejoin : (cell failing).live = true ∧ (failing.lots.map (·.lot)).Nodup ∧
    failing.link.state ≠ .withdrawn ∧ 224 ≤ failing.link.txErr ∧ failing.link.state = .quiet ∧
    (∀ r ∈ failing.lots, r.state = .inboundPending → failing.ownsEntry r = false) ∧
    (let asked := fun k => { sending failing ⟨.evaluator, 1, .dispose 30 1 1 5⟩ true with
       remote := some ⟨30, .yield, .resume, 110000, k⟩, link := { failing.link with
         slots := (sending failing ⟨.evaluator, 1, .dispose 30 1 1 5⟩ true).link.slots } }
     runs (exec (.transmitError false) (cell (asked 1))) (fun t => decide (t.blocks.remote = none)) = true ∧
     runs (exec (.transmitError false) (cell (asked 2))) (fun t => decide (t.blocks.remote.isSome = true)) = true) ∧
    ((cell away).live = true ∧ away.link.state = .withdrawn ∧ away.family.window = none ∧ away.family.rollcallDue = false ∧
      (away.lots.map (·.lot)).Nodup) ∧
    runs (exec (.transmitError false) (cell failing)) (fun t => decide (t.blocks.lots.map (fun r => (r.lot, r.state)) =
      [(1, .awaiting), (2, .awaiting), (4, .setup), (6, .finished)])) = true ∧
    runs (exec .rejoin (cell { away with link := { away.link with rejoinAcc := 10000 } })) (fun t => decide (t.clock = 100000 ∧
      t.blocks.link.state = .normal ∧
      (t.blocks.family.entries.map (fun e => (e.state, e.holdDue))) = [(.confirmed, true), (.unconfirmed, false)])) = true ∧
    (let f := { failing with
       custody := ⟨[⟨3, .accept, 9⟩, ⟨4, .take, 9⟩], [2]⟩
       family := ⟨[localEntry, entry 1 2 9 .stale], true, false, true, [(1, 7)], true, none, some 110000, none⟩ }
     runs (exec (.transmitError false) (cell f)) (fun t => decide (t.blocks.custody.answers = [⟨4, .take, 9⟩] ∧
       t.blocks.family = { f.family with window := none, rollcallDue := false })) = true) := by decide +kernel

theorem test_hyps_DiscardedFramesChangeNothingElse :
    let down := { blocks with link := { blocks.link with joined := false } }
    (cell down).live = true ∧ down.link.up = false ∧ blocks.link.up = true ∧ linkStateOf 0 (0 - 1) = .normal ∧
    ((5 : Nat) = (cell blocks).straps.toNat ∧ blocks.link.clash = false ∧ ({ blocks.link with clash := true }).clash = true) ∧
    62 < 63 ∧ (1 ≤ 62 ∧ 62 ≠ (cell blocks).straps.toNat ∧ frameOk (.award 1 63) = false ∧ frameOk (.award 1 62) = true) ∧
    runs (exec (.awardHeard 5 1 9) (cell blocks)) (fun t => decide (t.blocks.link.clash = true ∧
      t.blocks.link.signals = [.acknowledge])) = true := by decide +kernel

/-- A family hold list with sixteen entries. -/
def fullList : Blocks := listing blocks ((List.range 16).map (fun i => entry (i + 1) 1 9 .confirmed))

/-- The last released lot of family 70,115. -/
def released : RingEntry := ⟨30, 70115, 14, 90000, false, none, none⟩

theorem test_hyps_FamilyFramesHeard :
    let loc := listing { blocks with lots := [testLot] } [localEntry]
    let shipped := { blocks with lots := [lot 2 .queued], release := ⟨[released], []⟩ }
    (cell loc).hears 62 = true ∧ (cell loc).hears 1 = true ∧ (loc.lots.map (·.lot)).Nodup ∧
    loc.family.entry? 70115 40 = some localEntry ∧ localEntry.isLocal = true ∧ blocks.family.entry? 16777215 4294967295 = none ∧
    (listing blocks [entry 1 1 9 .stale]).family.entry? 1 1 = some (entry 1 1 9 .stale) ∧
    ((listing blocks [entry 1 1 9 .stale]).family.entry? 1 2 = none ∧ (listing blocks [entry 1 1 9 .stale]).family.listed 1 = true) ∧
    (shipped.family.entry? 70115 9 = none ∧ shipped.family.listed 70115 = false) ∧
    (fullList.family.entry? 17 1 = none ∧ fullList.family.entries.length = 16 ∧ fullList.family.saturated = false) ∧
    blocks.family.cursor = none ∧ (cell shipped).received = acked shipped ∧
    (let w := { loc with family := { loc.family with cursor := some ⟨70115, 40, false, some (70115, 40), none⟩ } }
     let m := sending w ⟨.family, 40, .hold 70115 40 5⟩ true
     runs (exec (.rollcallHeard 9) (cell m)) (fun t => decide (t.blocks.family.cursor = some ⟨70115, 40, false, some (70115, 40), none⟩)) = true) ∧
    runs (exec (.holdHeard 9 70115 9 9) (cell shipped)) (fun t => decide ((t.blocks.lot? 2).map (·.held) = some true ∧
      t.blocks.op.sending = some (.notice (.escape 30 70115 14 90000 9 9) none))) = true ∧
    runs (exec (.holdHeard 9 17 1 9) (cell fullList)) (fun t => decide (t.blocks.family.saturated = true)) = true ∧
    -- two released lots, the family listed already; SATURATED with an OFFER PENDING; the answer PENDING and on the line
    (let two := listing { blocks with release := ⟨[released, { released with lot := 31 }], []⟩ } [entry 70115 1 9 .confirmed]
     two.family.entry? 70115 9 = none ∧ two.family.listed 70115 = true ∧
     runs (exec (.holdHeard 9 70115 9 9) (cell two)) (fun t => decide (t.blocks.op.sending =
       some (.notice (.escape 30 70115 14 90000 9 9) none) ∧ t.blocks.op.notices = [.escape 31 70115 14 90000 9 9])) = true) ∧
    (let offering := { sending fullList ⟨.dispatch, 1, .offer ⟨1, 7, 70115, 1, 1, 20, 12, 2, 211⟩⟩ false with
       lots := [offered], bids := [⟨2, 9, 70115, 100, 85001, none⟩] }
     runs (exec (.holdHeard 9 17 1 9) (cell offering)) (fun t => decide ((t.blocks.lot? 1).map (fun r => (r.state, r.deadline)) =
       some (.awaiting, some ⟨.reoffer, 160000⟩) ∧ t.blocks.bids = [] ∧ t.blocks.link.slots = List.replicate 6 none)) = true) ∧
    (let placed := fun (wire : Bool) =>
       let b := sending loc ⟨.family, 40, .hold 70115 40 5⟩ wire
       { b with family := { b.family with cursor := some ⟨70115, 40, true, none, none⟩ } }
     runs (exec (.rollcallHeard 9) (cell (placed false))) (fun t => decide (t.blocks.family.cursor.map (·.waitsFor) = some none)) = true ∧
     runs (exec (.rollcallHeard 9) (cell (placed true))) (fun t =>
       decide (t.blocks.family.cursor = some ⟨70115, 40, false, some (70115, 40), none⟩ ∧
         t.blocks.link.slots.head?.join.map (·.cancelMark) = some true)) = true) := by
  decide +kernel

/-- A CLEAR while SATURATED starts a roll call. -/
theorem test_hyps_FamilyFramesHeard_saturated :
    runs (exec (.clearHeard 9 1 2 9) (cell (saturatedList blocks))) (fun t => decide (t.blocks.family.rollcallDue = true ∧
      t.blocks.family.entries = [entry 1 3 9 .confirmed] ∧ (t.blocks.link.slots.head?.join.map (·.frame.data)) = some .rollcall)) = true := by
  decide +kernel

/-- A lot with an open release window. -/
def releasing : LotRecord := { lot 1 .releasing with intent := some .sent, deadline := some ⟨.releaseWindow, 110000⟩, nextInsertion := none }

/-- A HOLD on a lot in RELEASING abandons its window; one on a lot that is ending is refused. -/
theorem test_hyps_HoldRequestRaisesOperator_releasing :
    let b := sending { blocks with lots := [{ releasing with intent := some .pending }] } ⟨.release, 1, .intent 1 70115⟩ false
    (releasing.state = .releasing ∧ releasing.ending = false ∧ releasing.hasHold .operator = false) ∧
    runs (exec (.holdLot 1) (cell b)) (fun t => decide (t.blocks.lots.map (fun r => (r.state, r.intent, r.deadline, r.held)) =
        [(.finished, none, none, true)] ∧ t.blocks.link.slots = List.replicate 6 none ∧
      t.blocks.op.notices = [.holdRaised 1 .operator .lot 2 none, .releaseAbandoned 1 (.hold .operator)])) = true ∧
    runs (exec (.holdLot 40) (cell { blocks with lots := [{ testLot with ending := true }] })) (fun t =>
      decide (t.blocks.op.sending = some (.reply (.no .wrongState)))) = true ∧
    runs (exec (.holdLot 0) (cell blocks)) (fun t => decide (t.blocks.op.sending = some (.reply (.no .badValue)))) = true := by
  decide +kernel

theorem test_hyps_IntentAndObjectHeard :
    let b := { blocks with lots := [lot 1 .queued, { lot 2 .awaiting with takenFrom := some 9 }, lot 3 .inbound] }
    let r := { blocks with lots := [releasing], release := ⟨[released], []⟩ }
    (cell b).hears 9 = true ∧ (cell b).received = acked b ∧ b.release.objections = [] ∧ b.lot? 1 = some (lot 1 .queued) ∧
    ((lot 1 .queued).ending = false ∧ (lot 1 .queued).hasHold .ident = false ∧ (lot 1 .queued).takenFrom ≠ some 9) ∧
    b.custody.answers = [] ∧ (b.lot? 3).map (·.state.custody) = some false ∧ b.lot? 4294967295 = none ∧
    (listing b [entry 16777215 1 9 .confirmed]).family.holdsFamily 16777215 = true ∧ b.family.holdsFamily 1 = false ∧
    ((cell r).received = acked r ∧ r.lot? 1 = some releasing ∧ releasing.state = .releasing ∧ releasing.hasHold .ident = false) ∧
    (released ∈ r.release.ring ∧ r.lot? 30 = none) ∧ (cell b).straps.toNat = 5 ∧
    runs (exec (.objectHeard 9 1 2 5) (cell r)) (fun t => decide ((t.blocks.lot? 1).map (·.releaseRetry) = some (some 110000))) = true ∧
    runs (exec (.intentHeard 9 2 1) (cell b)) (fun t => decide (t.blocks.custody.answers = [⟨2, .take, 9⟩])) = true := by
  decide +kernel

/-- Claims on a lot whose dossier is being sent, on one that has shipped and come back, on one taken from the claimant with its window
open, on one RELEASING, on one ending, with the objection list full, and on a lot that is not here. -/
theorem test_hyps_IntentAndObjectHeard_claims :
    let ident := fun (r : LotRecord) => r.hasHold .ident
    let one := fun (r : LotRecord) => { blocks with lots := [r], release := ⟨[released], []⟩ }
    let after := fun c b (p : LotRecord → Bool) => runs (exec c (cell b)) (fun t => t.blocks.lots.all p)
    let dossier := sending { one { awarded with awardDue := false, dossierSend := some (.sending 1) } with custody := ⟨[], [1]⟩ }
      ⟨.custody, 1, .dossier (awarded.segment 1)⟩ false
    let crowd := { one (lot 1 .queued) with release := ⟨[], (List.range 16).map (fun i => ⟨i + 50, .family, 9⟩)⟩ }
    after (.objectHeard 9 1 1 62) dossier (fun r => ident r && decide (r.dossierSend = some .stopped)) = true ∧
    (after (.objectHeard 9 30 1 5) (one (lot 30 .queued)) ident = true ∧
      runs (exec (.objectHeard 9 30 1 5) (cell (one (lot 30 .queued)))) (fun t =>
        decide (t.blocks.op.sending = some (.notice (.lateObjection 30 9 .duplicate) none))) = true) ∧
    runs (exec (.objectHeard 9 1 1 5) (cell (one { releasing with takenFrom := some 9 }))) (fun t => decide (
      t.blocks.lots.map (fun r => (r.state, r.holds, r.releaseRetry)) = [(.finished, [], some 110000)] ∧
        t.blocks.custody.answers = [⟨1, .take, 9⟩])) = true ∧
    after (.objectHeard 9 1 1 62) (one releasing) (fun r => ident r && decide (r.state = .finished ∧ r.releaseRetry = none)) = true ∧
    after (.intentHeard 9 1 1) (one releasing) (fun r => ident r && decide (r.state = .finished)) = true ∧
    after (.objectHeard 9 40 1 62) (one { testLot with ending := true }) (fun r => !ident r) = true ∧
    runs (exec (.intentHeard 9 1 1) (cell crowd)) (fun t => t.blocks.lots.all ident &&
      decide (t.blocks.op.sending = some (.notice (.objectionLost 1 .duplicate 9) none))) = true ∧
    runs (exec (.objectHeard 9 8 1 5) (cell (one (outbound 1)))) (fun t => decide (t.blocks.op.sending = none)) = true := by
  decide +kernel

/-- An OFFER of the sample product's insertion 1. -/
def offer (id : Nat) : OfferFields := ⟨id, 7, 70115, 1, 1, 20, 12, 2, 211⟩

theorem test_hyps_OfferHeardIsJudged :
    let b := { blocks with lots := [lot 1 .queued, { lot 2 .awaiting with takenFrom := some 9 }, inbound 3] }
    let q := { blocks with bids := [⟨8, 9, 70115, 100, 5000, none⟩] }
    (cell b).hears 9 = true ∧ (cell b).received = acked b ∧ offerOk (offer 4294967295) = true ∧ offerOk (offer 1) = true ∧
    (image.recipes.find? (fun r => r.product == 7) = some recipe ∧ recipe.packageClass = 12 ∧
      recipe.route[1 - 1]? = some ⟨.room, 211, some 0, 1000, 0⟩ ∧ bandCode .room = 2 ∧ Band.room ∈ image.bands) ∧
    ((cell blocks).ctx.passesFilter (offer 4) = true ∧ blocks.td.enabledCount = 4 ∧ blocks.commitments = 0 ∧
      blocks.family.holdsFamily 70115 = false ∧ blocks.link.state = .normal) ∧
    (blocks.link.requests = [] ∧ blocks.link.slots[0]? = some none ∧ blocks.lot? 4 = none ∧ blocks.bids = []) ∧
    changeover (cell blocks).ctx blocks.setup (blocks.projected (cell blocks).ctx) ⟨.room, 211, some 0, 1000, 0⟩ 12 16 (some 0) 0 = some 60 ∧
    changeover { (cell blocks).ctx with cfg := { image with steps := List.replicate 48 ⟨none, 0, 0, 1, some 0⟩ } } blocks.setup
      (blocks.projected (cell blocks).ctx) ⟨.room, 211, some 0, 1000, 0⟩ 12 16 (some 0) 0 = none ∧
    (8 ∈ q.bids.map (·.lot) ∧ q.lot? 8 = none) ∧ b.lot? 3 = some (inbound 3) ∧
    runs (exec (.offerHeard 9 (offer 4)) (cell blocks)) (fun t => decide (t.blocks.bids = [⟨4, 9, 70115, 60, 100000, none⟩])) = true ∧
    runs (exec (.offerHeard 9 (offer 3)) (cell b)) (fun t => decide (t.blocks.lot? 3 = none)) = true ∧
    runs (exec (.offerHeard 9 (offer 1)) (cell { blocks with lots := [lot 1 .finished] }))
      (fun t => (t.blocks.lot? 1).any (·.hasHold .ident)) = true := by decide +kernel

/-- The cell with nothing committed; a lot with an account, lots without one, a record whose summaries are missing; a timer
ring of four samples and of three. -/
theorem test_hyps_BacklogAndProjectedSetup :
    let pending : LotRecord := { lot 3 .inboundPending with peer := some 9, collected := 2, nextInsertion := some 2 }
    let b := { blocks with lots := [lot 1 .queued, inbound 2, pending, testLot], td := { blocks.td with timerRing := [900, 1100, 1000, 1001] } }
    blocks.lots.filter blocks.contributes = [] ∧ testLot.account = some account ∧
    ((lot 1 .queued).account = none ∧ (lot 1 .queued).state = .queued ∧ (inbound 2).state = .inbound) ∧
    (pending.account = none ∧ pending.state = .inboundPending ∧ pending.nextInsertion = some 2 ∧ pending.summaries.length < 2 - 1) ∧
    (testLot.state = .inTest ∧ 4 ≤ b.td.timerRing.length ∧ b.touchdownMs (cell b).ctx testLot = 1000) ∧
    ({ b.td with timerRing := [900, 1100, 1000] } : TdUnit).timerRing.length < 4 ∧
    (b.lots.filter b.contributes).map (·.lot) = [1, 2, 3, 40] ∧ b.backlog (cell b).ctx = 5 + 5 + 5 + 2 ∧
    (let y := { blocks with lots := [{ lot 1 .queued with arrival := some 5 }, testLot] }
     (y.custody.answers = [] ∧ y.lots.filter y.contributes = y.lots) ∧ (y.projected (cell y).ctx).band = some .room ∧
     (y.projected (cell y).ctx).kit = 12 ∧ (y.projected (cell y).ctx).programs = [211, 211, 211]) ∧
    ((cell b).ctx.stepRecord 0).next = some 1 ∧ ((cell b).ctx.stepRecord 4).next = none ∧
    (let amount := fun p n => stepAmount (cell b).ctx blocks.setup p ⟨.hot, 212, some 0, 1000, 5⟩ 12 ((cell b).ctx.stepRecord n)
     (List.range 6).map (amount ⟨some .room, 12, [211]⟩) = [90, 1200, 0, 120, 60, 0] ∧
     (List.range 3).map (amount ⟨none, 11, [212]⟩) = [0, 1500, 300] ∧ amount ⟨some .hot, 0, []⟩ 1 = 0) ∧
    (let fresh := { (cell b).ctx with now := 50000 + 24 * 3600000 }
     (stepAmount fresh blocks.setup ⟨none, 0, []⟩ ⟨.room, 211, some 0, 1000, 0⟩ 12 (fresh.stepRecord 3),
       stepAmount { fresh with now := fresh.now + 1 } blocks.setup ⟨none, 0, []⟩ ⟨.room, 211, some 0, 1000, 0⟩ 12
         (fresh.stepRecord 3)) = (0, 120)) := by decide +kernel

theorem test_hyps_BidsAndAwardsHeard :
    let q : BidRecord := ⟨8, 9, 70115, 100, 5000, some 5003⟩
    let b := { blocks with bids := [q] }
    let o := { blocks with lots := [{ offered with offer := some ⟨.sent, none, some (65535, 62)⟩ }] }
    (cell b).hears 9 = true ∧ (cell b).received = acked b ∧ b.bids.find? (fun x => x.lot == 8) = some q ∧ q.offerer = 9 ∧
    (99 < q.cost ∧ (cell b).straps.toNat = 5) ∧ b.lot? 8 = none ∧
    ((cell o).received = acked o ∧ (o.lot? 1).map (·.state) = some .offered ∧ o.bids = []) ∧
    runs (exec (.bidHeard 1 8 9 100) (cell b)) (fun t => decide (t.blocks.bids = [])) = true ∧
    runs (exec (.bidHeard 61 1 5 65535) (cell o)) (fun t => decide (((t.blocks.lot? 1).bind (·.offer)).bind (·.best) = some (65535, 61))) = true ∧
    runs (exec (.awardHeard 9 8 5) (cell b)) (fun t => decide ((t.blocks.lot? 8).map (·.state) = some .inboundPending)) = true ∧
    runs (exec (.awardHeard 10 8 5) (cell b)) (fun t => decide (t.blocks.bids = [q])) = true ∧
    -- the offerer's own bid stands at an equal cost of a higher station, and is beaten by one of a lower station
    (let mine := { offered with offer := some ⟨.sent, some (.pending, 60), none⟩ }
     let own := sending { blocks with lots := [mine], bids := [⟨1, 5, 70115, 60, 100000, none⟩] } ⟨.dispatch, 1, .bid 1 5 60⟩ false
     runs (exec (.bidHeard 9 1 5 60) (cell own)) (fun t => decide ((t.blocks.lot? 1).bind (·.offer) =
       some ⟨.sent, some (.pending, 60), some (60, 9)⟩ ∧ t.blocks.bids.length = 1)) = true ∧
     runs (exec (.bidHeard 4 1 5 60) (cell own)) (fun t => decide ((t.blocks.lot? 1).bind (·.offer) =
       some ⟨.sent, none, some (60, 4)⟩ ∧ t.blocks.bids = [] ∧ t.blocks.link.slots = List.replicate 6 none)) = true) := by decide +kernel

/-- A record whose dossier is collected, at some segment. -/
def collecting (k : Nat) : LotRecord :=
  { lot 1 .inboundPending with peer := some 9, collected := k, segmentCount := if k = 0 then none else some 3, nextInsertion := some 2 }

theorem test_hyps_DossierIsCollected :
    let b := fun k => { blocks with lots := [collecting k] }
    (cell (b 0)).hears 9 = true ∧ (cell (b 0)).received = acked (b 0) ∧ (b 0).lot? 1 = some (collecting 0) ∧
    ((collecting 0).state = .inboundPending ∧ (collecting 0).peer = some 9 ∧ (b 0).custody.answers = []) ∧
    ((collecting 0).collected = 0 ∧ (b 0).openCollection? 9 = none) ∧
    ((collecting 1).collected = 1 ∧ (collecting 1).segmentCount ≠ some 2 ∧ ({ collecting 1 with segmentCount := some 2 }).segmentCount = some 2) ∧
    ((b 2).openCollection? 9 = some (collecting 2) ∧ (collecting 2).segmentCount = some 3) ∧
    runs (exec (.dossierHeard 9 (.identity 1 65535 1 3 60000 4 4 255 5)) (cell (b 0)))
      (fun t => decide ((t.blocks.lot? 1).map (·.segmentCount) = some (some 5))) = true ∧
    runs (exec (.dossierHeard 9 (.identity 1 7 1 3 60000 4 4 255 4)) (cell (b 0))) (fun t => decide (t.blocks.lots = [])) = true ∧
    runs (exec (.dossierHeard 9 (.summary 3 1 4 20 (-65535) 15 2 1 0)) (cell (b 2)))
      (fun t => decide ((t.blocks.lot? 1).map (·.state) = some .inbound ∧ t.blocks.custody.answers = [⟨1, .accept, 9⟩])) = true := by
  decide +kernel

/-- A route with a band of code 0, and one with program 4096; a segment 1 from another station, and one of another lot. -/
theorem test_hyps_DossierIsCollected_removed :
    let b := fun k => { blocks with lots := [collecting k, { collecting 0 with lot := 2 }] }
    let left := fun c b => runs (exec c (cell b)) (fun t => decide (t.blocks.lots.map (fun r => (r.lot, r.collected)) = [(2, 0)]))
    (cell (b 1)).hears 10 = true ∧ (b 1).openCollection? 10 = none ∧ (b 2).openCollection? 9 = some (collecting 2) ∧
    (b 2).ownsEntry (collecting 2) = false ∧
    left (.dossierHeard 9 (.route 1 [(0, 211), (3, 212), (0, 0), (0, 0)])) (b 1) = true ∧
    left (.dossierHeard 9 (.route 1 [(2, 211), (3, 4096), (0, 0), (0, 0)])) (b 1) = true ∧
    left (.dossierHeard 10 (.identity 1 7 1 1 20 2 1 0 2)) (b 1) = true ∧
    runs (exec (.dossierHeard 9 (.identity 2 7 1 1 20 2 1 0 2)) (cell (b 2)))
      (fun t => decide (t.blocks.lots.map (fun r => (r.lot, r.collected)) = [(2, 1)])) = true := by decide +kernel

theorem test_hyps_TransferFramesHeard :
    let b := { blocks with lots := [awarded, outbound 2, inbound 3, { lot 4 .queued with takenFrom := some 9 }, lot 6 .finished] }
    (cell b).hears 9 = true ∧ (cell b).received = acked b ∧ (cell b).straps.toNat = 5 ∧ b.lot? 4294967295 = none ∧ b.lot? 1 = some awarded ∧
    (awarded.state = .awarded ∧ awarded.peer = some 9 ∧ awarded.held = false) ∧ b.lot? 2 = some (outbound 2) ∧
    b.lot? 3 = some (inbound 3) ∧ ((b.lot? 4).map (fun r => (r.state.custody, r.takenFrom)) = some (true, some 9) ∧ b.custody.answers = []) ∧
    ((lot 6 .finished).recallMark ≠ some 9 ∧ (lot 6 .finished).hasHold .ident = false) ∧
    (let back := { blocks with
       lots := [{ lot 1 .awaiting with recallMark := some 9 }, { offered with lot := 2, recallMark := some 9 }]
       bids := [⟨2, 5, 70115, 60, 85500, none⟩] }
     runs (exec (.takeHeard 9 1 5) (cell back)) (fun t => decide (t.blocks.lot? 1 = none)) = true ∧
     runs (exec (.shippedHeard 9 2 70115 14) (cell back)) (fun t => decide (t.blocks.lot? 2 = none ∧ ∀ q ∈ t.blocks.bids, q.lot = 1)) = true) ∧
    runs (exec (.acceptHeard 9 1 5) (cell b)) (fun t => decide ((t.blocks.lot? 1).map (·.state) = some .outbound)) = true ∧
    runs (exec (.declineHeard 9 2 5) (cell { blocks with lots := [{ outbound 2 with attempts := 15 }] }))
      (fun t => decide ((t.blocks.lot? 2).map (fun r => (r.attempts, r.stranded)) = some (15, true))) = true ∧
    runs (exec (.takeHeard 9 2 5) (cell b)) (fun t => decide (t.blocks.lot? 2 = none)) = true ∧
    runs (exec (.recallHeard 9 3 5) (cell b)) (fun t => decide (t.blocks.lot? 3 = none)) = true ∧
    runs (exec (.shippedHeard 9 6 1 65535) (cell b)) (fun t => (t.blocks.lot? 6).any (·.hasHold .ident)) = true := by decide +kernel

/-- An ACCEPT of a held AWARDED lot, of another station, and for a lot that is not AWARDED is ignored (R74). -/
theorem test_hyps_TransferFramesHeard_accept :
    let r := { awarded with holds := [hold .operator] }
    let ignored := fun (x : LotRecord) src => runs (exec (.acceptHeard src 1 5) (cell { blocks with lots := [x] })) (fun t =>
      decide (t.blocks.lots.map (fun y => (y.state, y.peer)) = [(x.state, x.peer)] ∧ t.blocks.op.sending = none))
    (r.state = .awarded ∧ r.peer = some 9 ∧ r.held = true) ∧
    ignored r 9 = true ∧ ignored awarded 10 = true ∧ ignored (outbound 1) 9 = true := by decide +kernel

theorem test_hyps_RemoteDispositionsHeard :
    let b := { blocks with lots := [heldLot 1 .queued .operator, heldLot 2 .outbound .operator, heldLot 3 .queued .family] }
    let q := { blocks with remote := some ⟨4294967295, .yield, .scrap, 110000, 1⟩ }
    (cell b).hears 9 = true ∧ (cell b).received = acked b ∧ b.link.state ≠ .withdrawn ∧ b.lot? 4294967295 = none ∧
    (b.link.requests = [] ∧ b.link.slots[0]? = some none) ∧ b.lot? 1 = some (heldLot 1 .queued .operator) ∧
    ((heldLot 1 .queued .operator).hasHold .yield = false ∧ (heldLot 1 .queued .operator).familyScope = false) ∧
    (heldLot 3 .queued .family).hasHold .family = true ∧ ((heldLot 2 .outbound .operator).state.custody = true) ∧
    ((cell q).received = acked q ∧ q.remote.isSome = true ∧ blocks.remote = none) ∧
    runs (exec (.disposeHeard 9 1 10 1 9) (cell b)) (fun t => decide ((t.blocks.lot? 1).map (·.held) = some false ∧
      (t.blocks.link.slots.head?.join.map (·.frame.data)) = some (.disposed 1 10 0 9))) = true ∧
    runs (exec (.disposedHeard 9 4294967295 1 9 5) (cell q)) (fun t => decide (t.blocks.remote = none)) = true ∧
    runs (exec (.disposedHeard 9 4294967295 1 9 6) (cell q)) (fun t => decide (t.blocks.remote = q.remote)) = true := by
  decide +kernel

/-- A DISPOSE of the last hold of family scope, with slot 1 EMPTY and with every slot taken. -/
theorem test_hyps_RemoteDispositionsHeard_family :
    let wide := listing { blocks with lots := [{ lot 40 .finished with holds := [wideHold .yield] }] } [localEntry]
    soundly (cell wide).received = true ∧
    runs (exec (.disposeHeard 9 40 1 1 9) (cell wide)) (fun t => decide (t.blocks.family.entries = [] ∧
      (t.blocks.lot? 40).map (·.suppressYield) = some true ∧
      (t.blocks.link.slots.head?.join.map (·.frame.data)) = some (.disposed 40 1 0 9))) = true ∧
    runs (exec (.disposeHeard 9 40 1 1 9) (cell (allSlots wide))) (fun t => decide (t.blocks.family.entries = [])) = true := by
  decide +kernel

theorem test_hyps_OfferDeadlinesExpire :
    let sent := fun best => { offered with offer := some ⟨.sent, none, best⟩ }
    let b := fun (r : LotRecord) => { blocks with lots := [r], bids := [⟨1, 5, 70115, 60, 85500, none⟩] }
    (cell (b offered)).live = true ∧ (b offered).lot? 1 = some offered ∧ offered.deadline = some ⟨.bidWindow, 103000⟩ ∧
    (b offered).bids.find? (fun q => q.lot == 1) = some ⟨1, 5, 70115, 60, 85500, none⟩ ∧
    ({ lot 1 .awaiting with deadline := some ⟨.reoffer, 103000⟩ }).deadline = some ⟨.reoffer, 103000⟩ ∧
    (sent none).held = false ∧ (sent (some (60, 5))).held = false ∧ ((5 : Nat) = (cell blocks).straps.toNat) ∧
    (awarded.deadline = some ⟨.acceptTimeout, 110000⟩ ∧ awarded.state = .awarded) ∧
    ((inbound 1).deadline = some ⟨.arrivalTimeout, 200000⟩ ∧ (inbound 1).peer = some 9 ∧ blocks.custody.answers = []) ∧
    runs (exec (.bidWindowClose 1) (cell (b offered))) (fun t => decide ((t.blocks.lot? 1).map (fun r => (r.state, r.deadline)) =
      some (.awaiting, some ⟨.reoffer, 163000⟩))) = true ∧
    (((b (sent (some (60, 5)))).bids.map (·.lot)) = [1] ∧ ({ blocks with lots := [sent (some (60, 5))] }).bids = []) ∧
    runs (exec (.bidWindowClose 1) (cell (b (sent (some (60, 5)))))) (fun t => decide ((t.blocks.lot? 1).map (fun r =>
      (r.arrival, r.awardDue)) = some (some 103000, false) ∧ t.blocks.bids = [])) = true ∧
    runs (exec (.bidWindowClose 1) (cell { blocks with lots := [sent (some (60, 5))] })) (fun t => decide ((t.blocks.lot? 1).map (fun r =>
      (r.arrival, r.attempts)) = some (some 103000, 0))) = true ∧
    (let busy := fun (n : Nat) bids => { blocks with
       lots := sent (some (60, 5)) :: (List.range n).map (fun i => lot (i + 11) .queued), bids := bids }
     let won := fun (x : Blocks) (n : Nat) => runs (exec (.bidWindowClose 1) (cell x)) (fun t => decide ((t.blocks.lot? 1).map (fun r =>
       (r.state.committed, r.arrival)) = some (true, some 103000) ∧ t.blocks.commitments = n))
     ((busy 7 []).commitments = 7 ∧ (busy 8 []).commitments = 8 ∧ (busy 7 [⟨1, 5, 70115, 60, 85500, none⟩]).commitments = 8 ∧
       ∀ q ∈ (busy 7 [⟨2, 9, 70115, 60, 85500, none⟩]).bids, q.lot ≠ 1) ∧
     won (busy 7 []) 8 = true ∧ won (busy 7 [⟨1, 5, 70115, 60, 85500, none⟩]) 8 = true ∧ won (busy 8 []) 9 = true) ∧
    runs (exec (.bidWindowClose 1) (cell (b (sent (some (60, 9)))))) (fun t => decide ((t.blocks.lot? 1).map (·.peer) = some (some 9))) = true ∧
    runs (exec (.acceptTimeout 1) (cell { blocks with lots := [{ awarded with attempts := 3 }] }))
      (fun t => decide ((t.blocks.lot? 1).map (fun r => (r.attempts, r.stranded)) = some (4, true))) = true ∧
    runs (exec (.arrivalTimeout 1) (cell { blocks with lots := [inbound 1] }))
      (fun t => decide (t.blocks.custody.answers = [⟨1, .decline, 9⟩])) = true := by decide +kernel

theorem test_hyps_ReleaseAndRollcallExpire :
    let r := { blocks with lots := [releasing] }
    let due : RingEntry := { released with due := true, retry := some 101000 }
    let f := listing blocks [entry 1 2 9 .unconfirmed]
    let w := { f with family := { f.family with window := some 105000, unsettled := true } }
    let q := { blocks with remote := some ⟨4294967295, .yield, .scrap, 110000, 2⟩ }
    (cell r).live = true ∧ (r.lots.map (·.lot)).Nodup ∧ ({ lot 1 .finished with releaseRetry := some 101000 }).releaseRetry = some 101000 ∧
    (r.lot? 1 = some releasing ∧ releasing.intent = some .sent ∧ releasing.deadline = some ⟨.releaseWindow, 110000⟩) ∧
    ({ releasing with intent := some .pending }).intent = some .pending ∧
    (let later := { due with retry := some 101500 }
     [later, due][1]? = some due ∧ blocks.link.slots[0]? = some none ∧
     runs (exec (.shippedRetry 30) (cell { blocks with release := ⟨[later, due], []⟩ })) (fun t =>
       decide (t.blocks.release.ring.map (fun y => (y.retry, y.placement)) = [(some 101500, none), (none, some 1)])) = true) ∧
    ({ blocks.family with rollcallDue := true, rollcallRetry := some 101000 }).rollcallRetry = some 101000 ∧
    ((allSlots blocks).link.requests = [] ∧ ∀ x ∈ (allSlots blocks).link.slots, x ≠ none) ∧
    (w.family.window = some 105000 ∧ w.family.entries.find? (fun y => y.state == .unconfirmed) = some (entry 1 2 9 .unconfirmed) ∧
      w.family.refusalMark = false ∧ w.everyHoldListed = true) ∧ (q.remote.map (·.deadline)) = some 110000 ∧
    runs (exec (.releaseWindowClose 1) (cell r)) (fun t => decide (t.blocks.lots = [] ∧ t.blocks.release.ring.map (fun y =>
      (y.lot, y.retry, y.placement)) = [(1, none, some 1)] ∧ (t.blocks.link.slots.head?.join.map (·.frame.data)) =
        some (.shipped 1 70115 0))) = true ∧
    runs (exec (.releaseWindowClose 1) (cell (allSlots r))) (fun t => decide (t.blocks.release.ring.map (fun y =>
      (y.retry, y.placement)) = [(some 111000, none)])) = true ∧
    runs (exec .rollcallWindowEnd (cell w)) (fun t => decide (t.blocks.family.unsettled = false ∧
      t.blocks.family.entries.map (·.state) = [.stale])) = true ∧
    runs (exec .remoteAnswerTimeout (cell q)) (fun t => decide (t.clock = 110000 ∧ t.blocks.remote = none)) = true ∧
    (let asked := fun k => { sending q ⟨.evaluator, 1, .dispose 30 1 1 5⟩ false with remote := some ⟨4294967295, .yield, .scrap, 110000, k⟩ }
     runs (exec .remoteAnswerTimeout (cell (asked 1))) (fun t => decide (t.blocks.link.slots[0]? = some none)) = true ∧
     runs (exec .remoteAnswerTimeout (cell (asked 2))) (fun t => decide (t.blocks.link.slots[0]? ≠ some none)) = true) := by
  decide +kernel

/-- A window ends with SATURATED still set and a free place, and with none. -/
theorem test_hyps_ReleaseAndRollcallExpire_again :
    let f := fun (b : Blocks) => { b with family := { b.family with saturated := true, refusalMark := true, window := some 105000 } }
    let b := f (listing blocks [entry 1 2 9 .confirmed])
    (b.family.entries.length < 16 ∧ b.family.rollcallDue = false ∧ b.family.refusalMark = true) ∧
    runs (exec .rollcallWindowEnd (cell b)) (fun t => decide (t.blocks.family.rollcallDue = true ∧ t.blocks.family.window = none ∧
      (t.blocks.link.slots.head?.join.map (·.frame.data)) = some .rollcall)) = true ∧
    runs (exec .rollcallWindowEnd (cell (f fullList))) (fun t => decide (t.blocks.family.rollcallDue = false ∧
      t.blocks.family.saturated = true)) = true := by decide +kernel

theorem test_hyps_TesterAnswersAreTaken :
    let op := fun c => { blocks with setup := { blocks.setup with inFlight := some (c, Origin.operator), slots :=
      [⟨.resident, some 211, some 50000⟩, ⟨.invalid, some 300, none⟩] } }
    let st := fun n c => setup .running (walk (some n) true) (some (c, .step))
    (cell blocks).takesPort .tester = true ∧ blocks.setup.slots[2 - 1]? = some ⟨.empty, none, none⟩ ∧
    ((op (.load 2 300)).setup.walk = none ∧ (op (.load 2 300)).setup.inFlight = some (.load 2 300, .operator) ∧
      (op (.load 2 300)).setup.slots[2 - 1]? = some ⟨.invalid, some 300, none⟩) ∧ (op (.evict 2)).setup.inFlight = some (.evict 2, .operator) ∧
    ((st 0 (.load 2 211)).setup.walk = some (walk (some 0) true) ∧ (walk (some 0) true).inStep = true ∧ (walk (some 0) true).deferred = none ∧
      (st 0 (.load 2 211)).setup.engine = .running ∧ ((cell blocks).ctx.stepRecord 0).kind = some .loadProgram) ∧
    ((st 0 (.evict 2)).lot? 40).isSome = true ∧
    ((st 3 (.select 1)).setup.residentSlot? ((st 3 (.select 1)).lot? 40).get!.program = some 1) ∧
    ((st 3 .check).setup.active = some 1 ∧ ((cell blocks).ctx.stepRecord 3).kind = some .correlate) ∧
    (blocks.setup.inFlight = none ∧ blocks.setup.active = some 1 ∧ blocks.setup.slots[1 - 1]? = some ⟨.resident, some 211, some 50000⟩) ∧
    ({ blocks.setup with active := none }).active = none ∧
    (let late := fun c => { setup .running { walk (some 0) true with deferred := some .handlerFault } (some (c, Origin.step)) with
       td := blocks.td }
     let done := setup .running (walk none false) (some (.select 1, .chainEnd))
     ((late (.load 2 211)).setup.walk.bind (·.deferred)) = some .handlerFault ∧
     (done.setup.residentSlot? 211 = some 1 ∧ done.setup.residentSlot? 211 ≠ some 2 ∧ done.testLot? = none ∧
       done.td.touchdown = none ∧ image.minSites ≤ done.td.enabledCount ∧ (walk none false).deferred = none ∧
       (heldLot 40 .setup .operator).held = true) ∧
     runs (exec (.loaded 2) (cell (late (.load 2 211)))) (fun t => decide (t.blocks.setup.slotState 2 = .resident ∧
       t.blocks.setup.walk.bind (·.fault) = some (.handlerFault, some 0))) = true ∧
     runs (exec (.loadFailed 2) (cell (late (.load 2 211)))) (fun t => decide (
       t.blocks.setup.walk.bind (·.fault) = some (.handlerFault, some 0))) = true ∧
     runs (exec (.evicted 2) (cell (late (.evict 2)))) (fun t => decide (t.blocks.setup.slotState 2 = .empty ∧
       t.blocks.setup.engine = .faulted ∧ t.blocks.ports.toTester = [])) = true ∧
     runs (exec (.selected 1) (cell done)) (fun t => decide ((t.blocks.lots.map (·.state)) = [.inTest] ∧
       t.blocks.setup.walk = none ∧ t.blocks.td.latch = false)) = true ∧
     runs (exec (.selected 1) (cell { done with lots := [heldLot 40 .setup .operator] })) (fun t =>
       decide (t.blocks.setup.walk.map (·.deadline) = some none ∧ t.blocks.lots.map (·.state) = [.setup])) = true ∧
     runs (exec (.selected 2) (cell { done with setup := { done.setup with inFlight := some (.select 2, .chainEnd) } })) (fun t =>
       decide (t.blocks.setup.walk.bind (·.fault) = some (.programMissing, none))) = true) ∧
    runs (exec (.loadFailed 2) (cell { op (.load 2 300) with setup := { (op (.load 2 300)).setup with slots :=
      [⟨.resident, some 211, some 50000⟩, ⟨.empty, none, none⟩] } })) (fun t => decide (t.blocks.setup.slots[1]? =
        some ⟨.invalid, some 300, none⟩)) = true ∧
    runs (exec (.evicted 2) (cell (st 0 (.evict 2)))) (fun t => decide (t.blocks.setup.inFlight = some (.load 2 211, .step))) = true ∧
    runs (exec (.selected 1) (cell (st 3 (.select 1)))) (fun t => decide (t.blocks.setup.inFlight = some (.check, .step))) = true ∧
    runs (exec .checkFail (cell (st 3 .check))) (fun t => decide (t.blocks.setup.slotState 1 = .invalid)) = true ∧
    runs (exec .checkPass (cell (st 3 .check))) (fun t => decide (t.blocks.setup.walk.map (·.current) = some (some 4))) = true := by
  decide +kernel

/-- A SELECTED of another slot for the SELECT of a step and of the chain end, and one of the slot asked for that has lost the program. -/
theorem test_hyps_TesterAnswersAreTaken_select :
    let st := fun c => setup .running (walk (some 3) true) (some (c, .step))
    let done := fun c => setup .pausing (walk none false) (some (c, .chainEnd))
    let gone := fun (b : Blocks) => { b with setup := { b.setup with slots := [⟨.resident, some 300, none⟩, ⟨.empty, none, none⟩] } }
    let fault := fun n b at_ => runs (exec (.selected n) (cell b)) (fun t =>
      decide (t.blocks.setup.walk.bind (·.fault) = some (.programMissing, at_) ∧ t.blocks.setup.inFlight = none))
    ((st (.select 2)).setup.walk = some (walk (some 3) true) ∧ (walk (some 3) true).inStep = true ∧ (walk (some 3) true).deferred = none ∧
      ((st (.select 2)).lot? 40).map (·.state) = some .setup) ∧
    ((walk none false).begun = true ∧ (walk none false).current = none ∧ (gone (st (.select 1))).setup.residentSlot? 211 ≠ some 1) ∧
    fault 1 (st (.select 2)) (some 3) = true ∧ fault 2 (st (.select 1)) (some 3) = true ∧ fault 1 (gone (st (.select 1))) (some 3) = true ∧
    fault 1 (done (.select 2)) none = true ∧ fault 1 (gone (done (.select 1))) none = true := by decide +kernel

theorem test_hyps_EngineDeadlinesExpire :
    let w := { walk none false with deadline := some 130000 }
    let op := fun c => { blocks with setup := { blocks.setup with inFlight := some (c, Origin.operator), operatorDeadline := some 130000 } }
    let at_ := fun b => ((cell b).elapseTo 130000).blocks
    (cell blocks).live = true ∧
    ((at_ (setup .running (walk (some 1) true) none)).setup.walk = some (walk (some 1) true) ∧ (walk (some 1) true).deadline = some 130000) ∧
    ((at_ (setup .running w none)).setup.walk = some w ∧ w.begun = true ∧ w.current = none ∧ w.inStep = false ∧ w.deferred = none) ∧
    ((at_ (op (.load 2 300))).setup.operatorDeadline = some 130000 ∧ (at_ (op (.load 2 300))).setup.walk = none) ∧
    (at_ (op (.evict 2))).setup.inFlight = some (.evict 2, .operator) ∧
    runs (exec .stepTimeout (cell (setup .running (walk (some 0) true) (some (.load 2 211, .step)))))
      (fun t => decide (t.blocks.ports.toTester = [.cancel 2] ∧ t.blocks.setup.engine = .faulted)) = true ∧
    runs (exec .operatorCommandTimeout (cell (op (.load 2 300)))) (fun t => decide (t.blocks.ports.toTester = [.cancel 2])) = true ∧
    -- an EVICT and a SELECT of the step, a SELECT at the chain end, a command of the operator beside the step, a deferred fault
    (let after := fun (b : Blocks) (p : Blocks → Bool) => runs (exec .stepTimeout (cell b)) (fun t =>
       decide (t.blocks.setup.walk.bind (·.fault) = some (.timeout, some 0) ∧ t.blocks.ports.toTester = []) && p t.blocks)
     let st := fun c o => setup .running (walk (some 0) true) (some (c, o))
     after (st (.evict 1) .step) (fun x => decide (x.setup.slotState 1 = .invalid ∧ x.setup.inFlight = none)) = true ∧
     after (st (.select 1) .step) (fun x => decide (x.setup.slots = blocks.setup.slots ∧ x.setup.inFlight = none)) = true ∧
     after (st (.load 2 300) .operator) (fun x => decide (x.setup.inFlight = some (.load 2 300, .operator))) = true ∧
     runs (exec .selectionDeadline (cell (setup .running w (some (.select 1, .chainEnd))))) (fun t => decide (
       t.blocks.setup.inFlight = none ∧ t.blocks.setup.walk.bind (·.fault) = some (.timeout, none))) = true ∧
     runs (exec .stepTimeout (cell (setup .running { walk (some 0) true with deferred := some .handlerFault } (some (.check, .step)))))
       (fun t => decide (t.blocks.setup.walk.bind (·.fault) = some (.handlerFault, some 0) ∧ t.blocks.setup.inFlight = none)) = true) ∧
    -- a SET_BAND step, ramping and soaking
    (let band := fun x => { setup .running (walk (some 1) true) none with setup := { (setup .running (walk (some 1) true) none).setup with
       thermal := x } }
     let left := fun (x : Thermal) => (match exec .stepTimeout (cell (band x)) with | .next t => some t.blocks.setup.thermal | _ => none)
     left ⟨some .room, .ramping, 0⟩ = some ⟨some .room, .unknown, 0⟩ ∧
       (left ⟨some .room, .soaking, 40000⟩).map (·.phase) = some .atSetpoint ∧ left ⟨some .room, .ready, 0⟩ = some ⟨some .room, .ready, 0⟩) ∧
    runs (exec .selectionDeadline (cell (setup .running w none))) (fun t => decide (t.clock = 130000 ∧ t.blocks.setup.engine = .faulted)) = true := by
  decide +kernel

/-- A lot of the second insertion in its SET_BAND step, ramping to HOT. -/
def ramping : Blocks :=
  let b := setup .running (walk (some 1) true) none
  { b with
    lots := [{ lot 40 .setup with nextInsertion := some 2, account := some (Account.fresh 20) }]
    setup := { b.setup with thermal := ⟨some .hot, .ramping, 0⟩ } }

theorem test_hyps_TemperatureAndKit :
    let th := fun x => { blocks with setup := { blocks.setup with thermal := x } }
    let kit := { blocks with setup := { blocks.setup with kitSince := some 99950 } }
    (cell blocks).live = true ∧ blocks.ports.handlerIgnoring = false ∧ bandOfCode 4 = none ∧
    ((th ⟨some .hot, .ramping, 0⟩).setup.thermal.band = some .hot ∧ (th ⟨some .hot, .ramping, 0⟩).setup.walk = none) ∧
    (ramping.setup.walk = some (walk (some 1) true) ∧ ((cell blocks).ctx.stepRecord 1).kind = some .setBand ∧
      (ramping.lot? 40).map (fun r => ((cell ramping).ctx.lotInsertion r).soakMinutes) = some 5) ∧
    ((th ⟨some .hot, .soaking, 300000⟩).setup.thermal.phase = .soaking ∧ 100000 + 300000 < Config.clockEnd) ∧ blocks.testLot? = none ∧
    ((testing .testing).testLot?.map (fun r => (r.state, r.ending, r.hasHold .thermal, r.account.map (·.phase))) =
      some (.inTest, false, false, some .main)) ∧
    (kit.setup.kitSince = some 99950 ∧ kit.setup.kitTaken ≠ (cell kit).pins.kitLines.toNat ∧
      (0 : Nat) = (cell { kit with setup := { kit.setup with kitTaken := 0 } }).pins.kitLines.toNat) ∧
    -- the kit changes while another step is in flight: CHECK ends, a LOAD leaves its slot INVALID without CANCEL, a soak is reloaded
    (let kitPast := fun w x th => { setup .running { (w : Walk) with kitMark := true } x with setup :=
       { (setup .running { w with kitMark := true } x).setup with kitSince := some 99950, kitTaken := 11, thermal := th } }
     let lines := fun (b : Blocks) => { cell b with pins := { (cell b).pins with kitLines := 12 } }
     let after := fun w x th (p : Blocks → Bool) => runs (exec .kitTaken (lines (kitPast w x th))) (fun t =>
       decide (t.blocks.setup.walk.bind (·.fault) = some (.kitChanged, w.current) ∧ t.blocks.ports.toTester = []) && p t.blocks)
     let room : Thermal := ⟨some .room, .ready, 0⟩
     after (walk (some 3) true) (some (.check, .step)) room (fun y => decide (y.setup.inFlight = none ∧ y.setup.thermal = room)) = true ∧
     after (walk (some 0) true) (some (.load 2 211, .step)) room (fun y => decide (y.setup.slotState 2 = .invalid)) = true ∧
     after (walk (some 1) true) none ⟨some .room, .soaking, 9⟩ (fun y => decide (y.setup.thermal.phase = .atSetpoint)) = true) ∧
    (let kitStep := fun (w : Walk) => { setup .running w none with setup :=
       { (setup .running w none).setup with kitSince := some 99950, kitTaken := 11 } }
     let lines := fun (b : Blocks) => { cell b with pins := { (cell b).pins with kitLines := 12 } }
     let last := { (lines (kitStep (walk (some 2) true))) with
       image := { image with steps := List.replicate 3 ⟨some .confirmKit, 0, 300, 1800, none⟩ } }
     ((kitStep (walk (some 2) true)).testLot? = none ∧ ((cell blocks).ctx.stepRecord 2).kind = some .confirmKit) ∧
     runs (exec .kitTaken (lines (kitStep (walk (some 2) true)))) (fun t => decide (t.blocks.setup.walk.map (fun w =>
       (w.current, w.kitMark)) = some (some 4, true))) = true ∧
     runs (exec .kitTaken last) (fun t => decide (t.blocks.lots.map (fun r => (r.state, r.held)) = [(.inTest, false)])) = true ∧
     runs (exec .kitTaken (lines (kitStep { walk none false with kitMark := true }))) (fun t =>
       decide (t.blocks.setup.walk.bind (·.fault) = some (.kitChanged, none))) = true) ∧
    runs (exec (.atTemp 3) (cell ramping)) (fun t => decide (t.blocks.setup.thermal = ⟨some .hot, .soaking, 300000⟩)) = true ∧
    runs (exec .soakEnd (cell (th ⟨some .hot, .soaking, 300000⟩)))
      (fun t => decide (t.clock = 400000 ∧ t.blocks.setup.thermal.phase = .ready)) = true ∧
    runs (exec .tempLost (cell (testing .testing))) (fun t => (t.blocks.lot? 40).any (·.hasHold .thermal)) = true ∧
    runs (exec .kitTaken (cell { kit with lots := [testLot] })) (fun t => (t.blocks.lot? 40).any (·.hasHold .setup)) = true ∧
    -- a soak of 0 and the end of a soak complete the step, in RUNNING and in PAUSING; TEMP_LOST in the step and past it
    (let quick := fun (b : Blocks) => { cell b with image := { image with recipes := [{ recipe with
       route := [⟨.room, 211, some 0, 1000, 0⟩, ⟨.hot, 212, none, 1000, 0⟩] }] } }
     let inStep := fun (e : EngineState) (x : Thermal) =>
       { ramping with setup := { ramping.setup with engine := e, thermal := x } }
     let past := { ramping with setup := { ramping.setup with
       walk := some { walk (some 3) true with bandMark := true }, thermal := ⟨some .hot, .ready, 0⟩ } }
     runs (exec (.atTemp 3) (quick (inStep .pausing ⟨some .hot, .ramping, 0⟩))) (fun t => decide (t.blocks.setup.engine = .paused ∧
       t.blocks.setup.thermal = ⟨some .hot, .ready, 0⟩ ∧ t.blocks.setup.walk.map (fun w => (w.bandMark, w.inStep)) = some (true, false))) = true ∧
     runs (exec .soakEnd (cell { inStep .running ⟨some .room, .soaking, 10⟩ with
         lots := [{ lot 40 .setup with account := some (Account.fresh 20) }] })) (fun t => decide (t.clock = 100010 ∧
       t.blocks.setup.walk.map (fun w => (w.bandMark, w.current)) = some (true, some 4))) = true ∧
     runs (exec .tempLost (cell (inStep .running ⟨some .hot, .soaking, 10⟩))) (fun t => decide (t.blocks.ports.toHandler =
       [.setpoint .hot] ∧ t.blocks.setup.thermal = ⟨some .hot, .ramping, 0⟩)) = true ∧
     runs (exec .tempLost (cell past)) (fun t => decide (t.blocks.setup.walk.bind (·.fault) = some (.tempLost, some 3))) = true) := by
  decide +kernel

/-- Lot 40 in its void pass. -/
def voidLot : LotRecord :=
  { testLot with state := .closing, account := some { account with voidOpen := 2, phase := .voidPass, voidPass := .running } }

/-- TEMP_LOST and a kit change in the void pass, with a touchdown in TESTING and with none; TEMP_LOST in IN_TEST with none (R129). -/
theorem test_hyps_TemperatureAndKit_voidPass :
    let pass := { blocks with lots := [voidLot] }
    let tested := { testing .testing with lots := [{ voidLot with account := voidLot.account.map (fun a => { a with inSockets := 2 }) }] }
    let kit := { pass with setup := { pass.setup with kitSince := some 99950 } }
    let after := fun c (b : Blocks) (k : HoldKind) => runs (exec c (cell b)) (fun t => decide ((t.blocks.lot? 40).map (fun r =>
      r.holds.map (·.kind)) = some [k] ∧ t.blocks.td.latch = true))
    (pass.testLot? = some voidLot ∧ voidLot.voidPassRuns = true ∧ pass.setup.walk = none ∧ voidLot.hasHold .setup = false ∧
      tested.td.touchdown = some (touchdown .testing) ∧ inTest.td.touchdown = none) ∧
    (after .tempLost pass .setup = true ∧ after .tempLost tested .setup = true ∧ after .tempLost inTest .thermal = true ∧
      after .kitTaken kit .setup = true) ∧
    runs (exec .tempLost (cell tested)) (fun t => decide (((t.blocks.lot? 40).bind (·.account)).map
      (fun a => (a.voidOpen, a.inSockets, a.voidFinal)) = some (2, 0, 2) ∧ t.blocks.td.touchdown.map (·.stage) = some .sorting)) = true := by
  decide +kernel

theorem test_hyps_TdReadyPlacesTheUnits :
    let go := { inTest with td := { inTest.td with latch := false } }
    let clear := { account with placedMain := 16 }
    (cell inTest).takesPort .handler = true ∧ (inTest.lots.map (·.lot)).Nodup ∧ (testing .parked).td.touchdown.isSome = true ∧
    (blocks.td.touchdown = none ∧ blocks.testLot? = none) ∧ (reconLot.state = .closing ∧ reconLot.voidPassRuns = false) ∧
    (inTest.testLot? = some testLot ∧ testLot.account = some account ∧ account.placedMain + 8 ≤ 65535 ∧ testLot.ending = false) ∧
    (((account.placedMain + 8 : Nat) : Int) ≤ (account.declared : Int) + account.adj ∧ account.excess = false) ∧
    ((clear.declared : Int) + clear.adj < ((clear.placedMain + 5 : Nat) : Int) ∧ testLot.hasHold .recon = false) ∧
    (inTest.td.latch = true ∧ go.td.latch = false) ∧
    (({ blocks with lots := [voidLot] }).testLot? = some voidLot ∧ (voidLot.account.map (·.voidPass)) = some .running) ∧
    runs (exec (.tdReady 0x1F) (cell go)) (fun t => decide ((t.blocks.lot? 40).bind (·.account) =
      some { account with placedMain := 17, inSockets := 4, voidOpen := 1 } ∧ t.blocks.ports.toTester = [.tdStart 1 [1, 2, 3, 4]])) = true ∧
    runs (exec (.tdReady 0xF0) (cell go)) (fun t => decide ((t.blocks.td.touchdown.map (·.stage)) = some .sorting)) = true ∧
    runs (exec (.tdReady 0xFF) (cell { inTest with lots := [{ testLot with account := some { clear with placedMain := 13 } }] }))
      (fun t => (t.blocks.lot? 40).any (·.hasHold .recon)) = true ∧
    runs (exec (.tdReady 0x11) (cell { blocks with lots := [voidLot] })) (fun t => decide (((t.blocks.lot? 40).bind (·.account)).map
      (fun a => (a.voidOpen, a.inSockets, a.voidFinal)) = some (0, 1, 1))) = true ∧
    -- the void pass with the latch clear and three units for two voids, and with none on an ENABLED site
    runs (exec (.tdReady 0x13) (cell { go with lots := [voidLot] })) (fun t => decide (((t.blocks.lot? 40).bind (·.account)).map
      (fun a => (a.voidOpen, a.inSockets, a.voidFinal)) = some (0, 2, 0) ∧ t.blocks.ports.toTester = [.tdStart 1 [1, 2]] ∧
      t.blocks.td.touchdown.map (·.voidSites) = some [(5, .uncounted)] ∧
      t.blocks.op.sending = some (.notice (.orphanUnits [5]) none))) = true ∧
    runs (exec (.tdReady 0xF0) (cell { go with lots := [voidLot] })) (fun t => decide (t.blocks.td.touchdown.map (fun x =>
      (x.stage, x.voidSites)) = some (.sorting, [(5, .voidFinal), (6, .voidFinal), (7, .uncounted), (8, .uncounted)]))) = true := by
  decide +kernel

theorem test_hyps_TdResultCountsTheUnits :
    let b := testing .testing
    let r := { testLot with account := some { account with inSockets := 2 } }
    (cell b).takesPort .tester = true ∧ b.td.touchdown = some (touchdown .testing) ∧ (touchdown .testing).sequence ≠ some 8 ∧
    (touchdown .sorting).stage ≠ .testing ∧ (touchdown .testing).sequence = some 9 ∧ b.testLot? = some r ∧ r.ending = false ∧
    (b.lots.map (·.lot)).Nodup ∧ account.bins.length = 15 ∧ (account.siteTested.length = 8 ∧ account.siteGood.length = 8 ∧
      account.failRun.length = 8 ∧ (touchdown .testing).active.Nodup) ∧ (∀ n ∈ (touchdown .testing).active, 1 ≤ n ∧ n ≤ 8) ∧
    (r.account.map (·.inSockets) = some (touchdown .testing).active.length ∧ b.family.entry? 70115 40 = none) ∧
    runs (exec (.tdResult 9 [15, 16, 0, 0, 0, 0, 0, 0]) (cell { b with lots := [{ r with ending := true }] })) (fun t =>
      decide (t.blocks.lots = [] ∧ t.blocks.td.touchdown.map (·.kind) = some .orphan ∧
        t.blocks.ports.toHandler = [.sort [.bin 15, .void, .void, .none, .none, .none, .none, .none], .lotEnd])) = true ∧
    runs (exec (.tdResult 9 [15, 16, 0, 0, 0, 0, 0, 0]) (cell b)) (fun t => decide ((t.blocks.lot? 40).bind (·.account) = some
      { account with bins := 10 :: List.replicate 13 0 ++ [1], voidOpen := 1, siteTested := 1 :: List.replicate 7 0, failRun := 1 :: List.replicate 7 0 } ∧
      t.blocks.ports.toHandler = [.sort [.bin 15, .void, .void, .none, .none, .none, .none, .none]])) = true := by decide +kernel

theorem test_hyps_EvaluationRaisesTheHolds :
    let low := { testLot with account := some { account with bins := [8, 0, 0, 0, 4] ++ List.replicate 10 0, failRun := 6 :: List.replicate 7 0 } }
    let b := { blocks with lots := [low] }
    let c := fun (r : Recipe) => { (cell b).ctx with cfg := { image with recipes := [r] } }
    b.lot? 40 = some low ∧ low.state = .inTest ∧ low.ending = false ∧ (recipe.familyYield = false ∧ recipe.familyBin = false) ∧
    ((c recipe).recipe 7 = recipe ∧ recipe.yieldLimit ≠ 0 ∧ low.suppressYield = false ∧ recipe.minSample ≤ 12 ∧
      (recipe.goodBins.map (fun k => (low.account.map (·.bin k)).getD 0)).sum * 1000 < recipe.yieldLimit * 12) ∧
    (b.family.entry? 70115 40 = none ∧ b.family.entries.length < 16) ∧ (b.td.sites.length = 8 ∧ b.td.site 1 = .enabled) ∧
    (recipe.runLimit = 0 ∧ recipe.spreadLimit = 0) ∧ b.td.site 8 ≠ .enabled ∧
    ((b.evaluate (c recipe) 40).lot? 40).map (fun r => (r.hasHold .yield, r.hasHold .bin, r.hasHold .sites)) = some (true, true, false) ∧
    ((b.evaluate (c { recipe with familyYield := true }) 40).family.entries.map (·.isLocal)) = [true] ∧
    (b.evaluate (c { recipe with runLimit := 6 }) 40).td.site 1 = .held .run ∧
    ((b.evaluate (c { recipe with familyBin := true }) 40).family.entries.map (·.isLocal)) = [true] ∧
    (let spread := { low with account := low.account.map (fun a => { a with
       siteTested := [100, 100, 100, 100, 0, 0, 0, 0], siteGood := [80, 95, 80, 99, 0, 0, 0, 0] }) }
     let x := ({ blocks with lots := [spread] }).evaluate (c { recipe with spreadLimit := 60 }) 40
     x.td.sites.take 4 = [.held .spread, .enabled, .enabled, .enabled]) ∧
    (let pass := { voidLot with account := voidLot.account.map (fun a => { a with bins := [8, 0, 0, 0, 4] ++ List.replicate 10 0 }) }
     (pass.state = .closing ∧ pass.ending = false) ∧
     ((({ blocks with lots := [pass] } : Blocks).evaluate (c recipe) 40).lot? 40).map (fun r => (r.state, r.hasHold .yield)) =
       some (.closing, true)) := by decide +kernel

/-- The trigger values; a bin that joins a BIN hold open before, and two that cross with none open. -/
theorem test_hyps_EvaluationRaisesTheHolds_values :
    let low := { testLot with account := some { account with bins := [8, 0, 0, 0, 4] ++ List.replicate 10 0 } }
    let x := fun (b : Blocks) (r : Recipe) => b.evaluate { (cell b).ctx with cfg := { image with recipes := [r] } } 40
    let holds := fun (b : Blocks) r (l : List (HoldKind × Option (Int × Int) × List Nat)) =>
      decide (((x b r).lot? 40).map (fun r => r.holds.map (fun h => (h.kind, h.trigger, h.bins))) = some l)
    let added := { blocks with lots := [{ low with holds := [{ hold .bin with bins := [7] }] }] }
    let few := { blocks with lots := [low], td := { blocks.td with sites := .enabled :: List.replicate 7 (.held .run) } }
    (added.op.notices = [] ∧ recipe.binLimits.length ≤ 4) ∧
    holds added recipe [(.bin, none, [7, 5]), (.yield, some (8, 12), [])] = true ∧
    Notice.holdBinAdded 40 5 4 ∈ (x added recipe).op.notices ∧
    holds few { recipe with yieldLimit := 0, familyBin := true, binLimits := [⟨5, 30⟩, ⟨9, 30⟩, ⟨1, 30⟩] }
      [(.bin, some (5, 4), [5, 1]), (.sites, some (1, 2), [])] = true := by decide +kernel

theorem test_hyps_SortedAndLotEmpty :
    let done := { testLot with account := some { account with placedMain := 20, bins := 20 :: List.replicate 14 0 } }
    let voids := { testLot with account := some { account with voidOpen := 2 } }
    (cell (testing .sorting)).takesPort .handler = true ∧ ((testing .sorting).lots.map (·.lot)).Nodup ∧
    ((testing .sorting).td.touchdown = some (touchdown .sorting) ∧ (touchdown .sorting).lotEmptyMark = false) ∧
    (testing .testing).td.touchdown = some (touchdown .testing) ∧ blocks.testLot? = none ∧ (touchdown .sorting).kind = .counted ∧
    (inTest.td.touchdown = none ∧ (voids.account.map (·.voidOpen)) = some 2) ∧
    (∀ a ∈ done.account, a.voidOpen = 0 ∧ (a.placedMain : Int) = (a.declared : Int) + a.adj ∧ a.excess = false ∧
      0 < a.good ((cell blocks).ctx.recipe 7).goodBins) ∧ (done.hasHold .recon = false ∧ done.ending = false) ∧
    (account.placedMain : Int) < (account.declared : Int) + account.adj ∧
    ({ voidLot with holds := [hold .recon] }).hasHold .recon = true ∧
    runs (exec .lotEmpty (cell { blocks with lots := [done] })) (fun t => decide ((t.blocks.lot? 40).map (·.summaries) =
      some [⟨1, 5, 20, 0, 20, 0, 0, 0⟩] ∧ t.blocks.ports.toHandler = [.lotEnd])) = true ∧
    runs (exec .lotEmpty (cell inTest)) (fun t => (t.blocks.lot? 40).any (·.hasHold .recon)) = true ∧
    (let mark := { touchdown .sorting with lotEmptyMark := true }
     let marked := { blocks with lots := [done], td := { blocks.td with touchdown := some mark, stopMark := true } }
     let passed := { voidLot with account := voidLot.account.map (fun a => { a with placedMain := 20 }) }
     let none_ := { done with account := done.account.map (fun a => { a with bins := List.replicate 15 0 }) }
     marked.td.touchdown = some mark ∧ mark.stage = .sorting ∧ mark.lotEmptyMark = true ∧
     (passed.state = .closing ∧ passed.account.map (fun a => (a.voidPass, a.excess)) = some (.running, false) ∧
       passed.hasHold .recon = false) ∧ blocks.family.entry? 70115 40 = none ∧
     runs (exec .sorted (cell marked)) (fun t => decide ((t.blocks.lot? 40).map (·.summaries) = some [⟨1, 5, 20, 0, 20, 0, 0, 0⟩] ∧
       t.blocks.op.sending = some (.notice (.insertionClosed 40 1 ⟨1, 5, 20, 0, 20, 0, 0, 0⟩) none) ∧
       t.blocks.op.notices = [.stopped] ∧ t.blocks.td.touchdown = none)) = true ∧
     runs (exec .lotEmpty (cell { blocks with lots := [passed] })) (fun t => decide ((t.blocks.lot? 40).map (·.summaries) =
       some [⟨1, 5, 20, 0, 10, 0, 2, 0⟩])) = true ∧
     runs (exec .lotEmpty (cell { blocks with lots := [none_] })) (fun t => decide (t.blocks.lots = [] ∧
       t.blocks.op.notices = [.emptyLot 40])) = true) ∧
    -- RECON of an excess, and one open before; a COUNTED touchdown and an ORPHAN one; the void pass ended
    (let excess := fun (r : LotRecord) => { r with account := r.account.map (fun a => { a with placedMain := 20, excess := true }) }
     let recon := fun (b : Blocks) => runs (exec .lotEmpty (cell b)) (fun t => decide ((t.blocks.lot? 40).map (fun r =>
       (r.state, r.holds.map (fun h => (h.kind, h.trigger)))) = some (.closing, [(.recon, some (20, 20))]) ∧ t.blocks.td.latch = true))
     let with_ := fun (r : LotRecord) kind => { blocks with
       lots := [r], td := { blocks.td with touchdown := some { touchdown .sorting with kind := kind } } }
     recon { blocks with lots := [excess testLot] } = true ∧ recon { blocks with lots := [excess voidLot] } = true ∧
     recon (with_ (excess voidLot) .orphan) = true ∧
     runs (exec .lotEmpty (cell { blocks with lots := [{ testLot with holds := [hold .recon] }] })) (fun t =>
       decide (t.blocks.lots.map (fun r => (r.state, r.holds)) = [(.closing, [hold .recon])])) = true ∧
     runs (exec .lotEmpty (cell (with_ voidLot .counted))) (fun t =>
       decide (t.blocks.td.touchdown.map (·.lotEmptyMark) = some true)) = true ∧
     (reconLot.account.map (·.voidPass)) = some .ended ∧
     runs (exec .lotEmpty (cell { blocks with lots := [reconLot] })) (fun t => decide (t.blocks.lots = [reconLot])) = true) ∧
    runs (exec .sorted (cell { testing .sorting with td := { (testing .sorting).td with stopMark := true } }))
      (fun t => decide (t.blocks.td.touchdown = none ∧ t.blocks.op.sending = some (.notice .stopped none))) = true := by decide +kernel

/-- A queue and a lot in the cell, with a frame due. -/
theorem test_hyps_WhatFollowsAChange : ((testing .testing).lots.map (·.lot)).Nodup ∧ (testing .testing).cellLot?.isSome = true ∧
    ({ testing .testing with lots := (testing .testing).lots ++ [lot 41 .finished] }.settle (cell blocks).ctx).link.slots ≠
      (testing .testing).link.slots ∧
    (let waiting := { setup .running { walk none false with deadline := none } none with lots := [heldLot 40 .setup .operator] }
     let lost := { waiting with setup := { waiting.setup with active := none } }
     waiting.cellLot?.isSome = true ∧ (waiting.setup.waitsAtEnd = true ∧ waiting.programActive = true) ∧
     (lost.setup.waitsAtEnd = true ∧ lost.programActive = false) ∧
     (lost.settle (cell lost).ctx).setup.walk.map (·.endAgain) = some true) := by decide +kernel

/-- The walk of lot 40 before step `n`, with the program slots, their order of use, the band and the kit given. -/
def before (count : Nat) (slots : List ProgSlot) (th : Thermal) (kit : Nat) : Blocks :=
  let b := setup .running { walk (some 0) false with count := count } none
  { b with setup := { b.setup with slots := slots, lru := [2, 1], thermal := th, kitTaken := kit } }

/-- Where the walk stands: its step, whether in flight, and its count of records. -/
def stands (b : Blocks) : Option (Option Nat × Bool × Nat) := b.setup.walk.map (fun w => (w.current, w.inStep, w.count))

/-- The sample cell's READY band, its own program RESIDENT, and another program in a slot. -/
def roomReady : Thermal := ⟨some .room, .ready, 0⟩
def ownSlot : ProgSlot := ⟨.resident, some 211, some 50000⟩
def otherSlot (st : ProgState) : ProgSlot := ⟨st, some 300, none⟩

/-- What the walk does from step `n` on in the sample cell. -/
def fromStep (b : Blocks) (n : Nat) : Blocks := b.walkFrom (cell blocks).ctx (some n)

/-- The sample cell with the image `w`. -/
def ctxOf (w : WorkingCopy) : Ctx := { (cell blocks).ctx with cfg := w }

/-- Steps skipped, a step of estimate 0, and each choice of a slot by LOAD_PROGRAM. -/
theorem test_hyps_StepsAreSkippedOrBegun_load :
    let sends := fun (slots : List ProgSlot) => (fromStep (before 2 slots roomReady 12) 0).ports.toTester
    stands (fromStep (before 2 [ownSlot] roomReady 12) 0) = some (some 4, true, 7) ∧
    (fromStep (before 2 [ownSlot] roomReady 12) 0).setup.walk.map (fun w => (w.bandMark, w.kitMark)) = some (true, true) ∧
    (fromStep (before 2 [ownSlot] roomReady 12) 9).lots.map (·.state) = [.inTest] ∧
    sends [otherSlot .resident, ⟨.empty, none, none⟩] = [.load 2 211] ∧
    sends [otherSlot .invalid, otherSlot .resident] = [.evict 1] ∧
    sends [otherSlot .resident, otherSlot .resident] = [.evict 2] ∧
    ((before 2 [ownSlot, otherSlot .loading] roomReady 12).walkFrom
      (ctxOf { image with steps := [⟨some .loadProgram, 5, 90, 300, none⟩] }) (some 0)).ports.toTester = [.evict 1] := by
  decide +kernel

/-- The other kinds of step begun, a fault line asserted, and the seventeenth record. -/
theorem test_hyps_StepsAreSkippedOrBegun :
    let stale := before 2 [⟨.resident, some 211, none⟩] roomReady 12
    let unselected := { stale with setup := { stale.setup with active := none } }
    let atSet := before 2 [ownSlot] ⟨some .room, .atSetpoint, 0⟩ 12
    (let cold := fromStep (before 2 [ownSlot] ⟨some .hot, .ready, 0⟩ 12) 1
     cold.ports.toHandler = [.setpoint .room] ∧ cold.setup.thermal = ⟨some .room, .ramping, 0⟩) ∧
    ((cell blocks).ctx.fullSoak (lot 40 .setup) = 0 ∧ stands (fromStep atSet 1) = some (some 4, true, 6)) ∧
    (atSet.walkFrom (ctxOf { image with recipes := [{ recipe with route := [⟨.room, 211, some 0, 1000, 5⟩] }] }) (some 1)).setup.thermal =
      ⟨some .room, .soaking, 300000⟩ ∧
    (fromStep (before 2 [ownSlot] roomReady 9) 2).op.notices = [.kitChange 40 12 9] ∧
    (stale.setup.active = some 1 ∧ (fromStep stale 3).ports.toTester = [.check] ∧ (fromStep unselected 3).ports.toTester = [.select 1]) ∧
    (fromStep (before 2 [otherSlot .resident] roomReady 12) 3).setup.walk.bind (·.fault) = some (.programMissing, some 3) ∧
    (fromStep (before 2 [ownSlot] roomReady 12) 4).op.notices = [.operatorWait 40 4] ∧
    (fromStep (before 16 [ownSlot] roomReady 12) 4).setup.walk.bind (·.fault) = some (.loop, some 0) ∧
    ((before 2 [ownSlot] roomReady 12).walkFrom { (cell blocks).ctx with pins := { (cell blocks).ctx.pins with handlerFault := true } }
      (some 4)).setup.walk.bind (·.fault) = some (.handlerFault, some 4) := by decide +kernel

/-- The sample cell settled. -/
def settles (b : Blocks) : Blocks := b.settle (cell blocks).ctx

/-- The owners of class 0 and 1 frames, and the evaluator, which has none due. -/
def owners : List Block := [.custody, .dispatch, .family, .release, .evaluator]

/-- Nothing due, to start, to offer or to release. -/
def quietly (b : Blocks) : Bool :=
  owners.all (fun o => b.nextDue (cell blocks).ctx o == none) && !b.setup.waitsAtEnd &&
    b.lots.all (fun r => !b.offerable r && !b.releasable (cell blocks).ctx r)

/-- Five slots taken by frames of class 0, the sixth EMPTY. -/
def oneEmpty (b : Blocks) : Blocks := { b with link := { b.link with slots := (allSlots b).link.slots.take 5 ++ [none] } }

/-- Three lots in the queue, the first held. -/
def queued : Blocks :=
  { blocks with lots := [heldLot 1 .queued .operator, { lot 2 .queued with arrival := some 9 }, { lot 3 .queued with arrival := some 8 }] }

/-- Two offerable lots, two releasable ones. -/
def offerables : Blocks := { blocks with lots := [{ lot 1 .awaiting with priority := 2 }, lot 2 .awaiting] }
def releasables : Blocks := { blocks with lots := [lot 1 .finished, { lot 2 .finished with nextInsertion := none }] }

/-- The first unheld lot enters SETUP, its walk beginning at once or waiting; of two offerable lots one is OFFERED, with no slot
EMPTY none; an own bid is made and is barred by the filter. -/
theorem test_hyps_SweepsStartOfferAndRelease :
    let busy := { queued with setup := { queued.setup with inFlight := some (.load 2 300, .operator) } }
    let one := { blocks with lots := [lot 2 .awaiting] }
    (quietly queued = true ∧ queued.cellLot? = none ∧ (queued.lots.map (·.lot)).Pairwise (· < ·)) ∧
    (settles queued).lots.map (fun r => (r.lot, r.state)) = [(1, .queued), (2, .queued), (3, .setup)] ∧
    stands (settles queued) = some (some 4, true, 5) ∧ stands (settles busy) = some (some 0, false, 0) ∧
    offerables.lots.all offerables.offerable = true ∧ (oneEmpty offerables).link.slots[5]? = some none ∧
    (settles (oneEmpty offerables)).lots.map (fun r => (r.state, r.deadline)) =
      [(.awaiting, some ⟨.reoffer, 160000⟩), (.offered, some ⟨.bidWindow, 103000⟩)] ∧
    ((settles (oneEmpty offerables)).link.slots[5]?.join.map (·.frame.data)) = some (.offer ⟨2, 7, 70115, 1, 1, 20, 12, 2, 211⟩) ∧
    (settles (allSlots offerables)).lots.map (·.deadline) = [some ⟨.reoffer, 160000⟩, some ⟨.reoffer, 160000⟩] ∧
    (settles one).bids.map (fun q => (q.lot, q.offerer, q.cost)) = [(2, 5, 60)] ∧
    ((settles one).link.slots.take 2).map (fun y => y.map (fun f => frameKind f.frame.data)) = [some 0, some 1] ∧
    (one.settle (ctxOf { image with filters := [⟨0, 0xFFFFFF, true⟩] })).bids = [] := by decide +kernel

/-- Of two releasable lots one is RELEASING; with no slot EMPTY both wait. -/
theorem test_hyps_SweepsStartOfferAndRelease_release :
    releasables.lots.all (releasables.releasable (cell blocks).ctx) = true ∧
    (settles (oneEmpty releasables)).lots.map (fun r => (r.state, r.deadline, r.releaseRetry)) =
      [(.releasing, some ⟨.releaseWindow, 110000⟩, none), (.finished, none, some 101000)] ∧
    ((settles (oneEmpty releasables)).link.slots[5]?.join.map (·.frame.data)) = some (.intent 1 70115) ∧
    (settles (allSlots releasables)).lots.map (·.releaseRetry) = [some 101000, some 101000] := by decide +kernel

/-- The custody unit with a TAKE due. -/
def answering (b : Blocks) : Blocks := { b with custody := ⟨[⟨1, .take, 9⟩], []⟩ }

/-- All slots taken, the sixth by a PENDING frame `f` of placement number 9. -/
def lastSlot (f : Frame) (b : Blocks) : Blocks :=
  { b with link := { b.link with
      slots := (allSlots b).link.slots.take 5 ++ [some ⟨f, frameIdentifier 5 f.data, 9, false, false⟩], placements := 9 } }

/-- The frames in the slots. -/
def frames (b : Blocks) : List (Option FrameData) := b.link.slots.map (fun y => y.map (·.frame.data))

/-- A frame due takes the EMPTY slot, displaces the class 3 frame, asks for a slot, and is granted one. -/
theorem test_hyps_DueFramesTakeTheirSlots :
    let two := { blocks with custody := ⟨[⟨1, .take, 9⟩, ⟨2, .accept, 9⟩], []⟩ }
    let asked := { answering (oneEmpty blocks) with link := { (oneEmpty blocks).link with requests := [(.family, 0), (.custody, 1)] } }
    (answering blocks).setup.waitsAtEnd = false ∧
    owners.all (fun o => o == .custody || (answering blocks).nextDue (cell blocks).ctx o == none) = true ∧
    two.nextDue (cell blocks).ctx .custody = some ⟨.custody, 1, .take 1 9⟩ ∧
    frames (settles (answering blocks)) = [some (.take 1 9), none, none, none, none, none] ∧
    frames (settles two) = [some (.take 1 9), some (.accept 2 9), none, none, none, none] ∧
    (frames (settles (answering (lastSlot bidFrame blocks))))[5]? = some (some (.take 1 9)) ∧
    (settles (answering (allSlots blocks))).link.requests = [(.custody, 1)] ∧
    (frames (settles asked))[5]? = some (some (.take 1 9)) ∧ (settles asked).link.requests = [] := by decide +kernel

/-- What each owner has due, and a dossier begun and going on. -/
theorem test_hyps_DueFramesTakeTheirSlots_due :
    let c := (cell blocks).ctx
    let held := { lot 3 .queued with awardDue := true, holds := [hold .operator] }
    let sends := { awarded with awardDue := false }
    let dossier := { blocks with lots := [sends], custody := ⟨[], [1]⟩ }
    ({ blocks with lots := [held] } : Blocks).nextDue c .dispatch = some ⟨.dispatch, 3, .award 3 5⟩ ∧
    (listing blocks [{ localEntry with holdDue := true }]).nextDue c .family = some ⟨.family, 40, .hold 70115 40 5⟩ ∧
    ({ blocks with family := { blocks.family with clearDue := [(1, 7)] } } : Blocks).nextDue c .family =
      some ⟨.family, 7, .clear 1 7 5⟩ ∧
    ({ blocks with release := ⟨[], [⟨8, .family, 9⟩]⟩ } : Blocks).nextDue c .release = some ⟨.release, 8, .object 8 2 9⟩ ∧
    (settles dossier).lots.map (·.dossierSend) = [some (.sending 1)] ∧
    frames (settles dossier) = [some (.dossier (.identity 1 7 70115 1 20 2 1 0 2)), none, none, none, none, none] ∧
    ({ dossier with lots := [{ sends with dossierSend := some (.sending 2) }] } : Blocks).nextDue c .custody =
      some ⟨.custody, 1, .dossier (awarded.segment 2)⟩ := by decide +kernel

/-- The roll-call answer due, none while one is placed or awaited; the entry at the cursor removed, its answer not placed, on the
line, and again another entry's. -/
theorem test_hyps_DueFramesTakeTheirSlots_answers :
    let c := (cell blocks).ctx
    let next := { localEntry with lot := 41 }
    let at_ := fun (b : Blocks) cu => { b with family := { b.family with cursor := some cu } }
    let l := listing blocks [localEntry, next]
    let walks : Cursor := ⟨70115, 40, false, none, none⟩
    let wire := answeredAt { walks with placed := true } [localEntry, next] false
    (at_ l walks).nextDue c .family = some ⟨.family, 40, .hold 70115 40 5⟩ ∧
    (at_ l { walks with placed := true }).nextDue c .family = none ∧
    (at_ l { walks with waitsFor := some (1, 2) }).nextDue c .family = none ∧
    (settles (at_ l walks)).family.cursor = some { walks with placed := true } ∧ l.family.saturated = false ∧
    ((at_ l walks).removeEntry c 70115 40).family.cursor = some { walks with lot := 41 } ∧
    (wire.removeEntry c 70115 40).family.cursor = some { walks with placed := true, gone := some 0 } ∧
    ((at_ l walks).removeEntry c 70115 41).family.cursor = some walks ∧
    ((at_ l { walks with gone := some 2 }).removeEntry c 70115 41).family.cursor = some { walks with gone := some 1 } := by
  decide +kernel

/-- The owner of each displaced frame told. -/
theorem test_hyps_DueFramesTakeTheirSlots_told :
    let after := fun (f : Frame) (b : Blocks) => settles (answering (lastSlot f b))
    let offer : Frame := ⟨.dispatch, 1, .offer ⟨1, 7, 70115, 1, 1, 20, 12, 2, 211⟩⟩
    let ring : ReleaseUnit := ⟨[{ released with due := true, placement := some 9 }], []⟩
    (after offer { blocks with lots := [offered] }).lots.map (fun r => (r.state, r.deadline)) = [(.awaiting, some ⟨.reoffer, 160000⟩)] ∧
    (after ⟨.release, 1, .intent 1 70115⟩ { blocks with lots := [releasing] }).lots.map (fun r => (r.state, r.releaseRetry)) =
      [(.finished, some 101000)] ∧
    (after ⟨.release, 1, .intent 1 70115⟩ { blocks with lots := [releasing] }).op.notices = [.releaseAbandoned 1 .notSent] ∧
    (after bidFrame { blocks with bids := [⟨2, 9, 70115, 100, 5000, none⟩] }).bids = [] ∧
    (after ⟨.family, 0, .rollcall⟩ { blocks with family := { blocks.family with rollcallDue := true } }).family.rollcallRetry =
      some 101000 ∧
    (after ⟨.release, 30, .shipped 30 70115 14⟩ { blocks with release := ring }).release.ring.map (fun y => (y.retry, y.placement)) =
      [(some 101000, none)] := by decide +kernel

/-- The sample cell with RESET_N held: due answers, entries of the family hold list, SATURATED, a reply queued, a slot taken. -/
def resettingRest : State :=
  let b := sending { blocks with
    lots := [lot 10 .awarded, heldLot 40 .finished .operator, lot 50 .inbound]
    custody := ⟨[⟨50, .accept, 9⟩], [10]⟩
    family := ⟨[localEntry, entry 70115 2 9 .confirmed], true, false, true, [(1, 7)], false, none, none, none⟩
    op := { OperatorLine.powerOn with replies := [.ok], restarting := true } } ⟨.dispatch, 10, .award 10 9⟩ true
  { cell b with pins := { (cell b).pins with resetHeld := true } }

theorem test_hyps_WarmResetKeepsTheLots_kept : resettingRest.run = .running ∧ (resettingRest.blocks.lots.map (·.lot)).Nodup ∧
    (∀ r ∈ resettingRest.blocks.lots, r.ending = false ∧ r.state ≠ .inboundPending) ∧
    runs (exec (.warmReset 9) resettingRest) (fun t => decide (t.blocks.custody.answers = [⟨50, .accept, 9⟩] ∧
      t.blocks.family.entries = [{ localEntry with holdDue := true }, entry 70115 2 9 .unconfirmed] ∧
      t.blocks.family.saturated = true ∧ t.blocks.family.refusalMark = true ∧ t.blocks.family.clearDue = [(1, 7)] ∧
      t.blocks.lots.map (fun r => (r.state, r.peer)) = [(.awaiting, none), (.finished, none), (.inbound, none)] ∧
      t.blocks.lots.map (fun r => r.holds.map (·.kind)) = [[.family], [.operator], []])) = true ∧
    runs (exec (.warmReset 9) resettingRest) (fun t => decide (t.blocks.op.restarting = false ∧
      t.blocks.op.sending = some (.reply .ok) ∧ t.blocks.op.notices.head? = some (.restarted true 9) ∧
      frames t.blocks = [some (.hold 70115 40 9), some (.clear 1 7 9), some (.accept 50 9), some .rollcall, none, none])) = true := by
  decide +kernel

/-- Straps 0 and 63; out of CONFIG_FAULT with an image kept and without one; while loading, without power, and not asked for. -/
theorem test_hyps_WarmResetKeepsTheLots_faults :
    let fault := { resettingRest with run := .configFault .straps }
    let held := { loading 5 with pins := { (loading 5).pins with resetHeld := true } }
    (fault.imageKept = true ∧ (cell blocks).pins.resetHeld = false ∧ (cell blocks).blocks.op.restartReady = false) ∧
    runs (exec (.warmReset 0) resettingRest) (fun t => decide (t.run = .configFault .straps ∧ t.blocks.lots = [] ∧
      t.blocks.op.sending = some (.reply .ok) ∧ t.blocks.op.notices = [.configFault .straps])) = true ∧
    runs (exec (.warmReset 63) resettingRest) (fun t => decide (t.run = .configFault .straps)) = true ∧
    runs (exec (.warmReset 1) fault) (fun t => decide (t.run = .running ∧ t.blocks.family.rollcallDue = true ∧
      t.blocks.op.notices = [.started 1 518 1 0])) = true ∧
    runs (exec (.warmReset 63) fault) (fun t => decide (t.run = .configFault .straps)) = true ∧
    runs (exec (.warmReset 62) { fault with run := .configFault .sum, imageKept := false }) (fun t =>
      decide (t.run = .configFault .sum)) = true ∧
    runs (exec (.warmReset 7) held) (fun t => decide (t.straps = 7 ∧ t.run = .loading)) = true ∧
    runs (exec (.warmReset 7) { held with run := .off }) (fun t => decide (t.straps = 5)) = true := by decide +kernel

/-- A lot that is ending at a warm reset, its touchdown in TESTING, and in SORTING with nothing left in the sockets. -/
theorem test_hyps_WarmResetKeepsTheLots_ending :
    let s := fun stage n =>
      let b := { testing stage with lots :=
        [{ heldLot 40 .inTest .operator with account := some { account with inSockets := n }, ending := true }] }
      { cell b with pins := { (cell b).pins with resetHeld := true } }
    let gone := fun (x : State) => runs (exec (.warmReset 5) x) (fun t =>
      decide (t.blocks.lots = [] ∧ t.blocks.ports.toHandler.getLast? = some .lotEnd))
    ((s .testing 2).blocks.testLot?.map (fun r => (r.ending, r.account.map (·.inSockets))) = some (true, some 2) ∧
      (touchdown .testing).active.length = 2) ∧
    gone (s .testing 2) = true ∧ gone (s .sorting 0) = true := by decide +kernel

theorem test_hyps_RecordsEnterByEnterOrWonBid : (loading 5).run = .loading ∧ (loading 5).pins.resetHeld = false ∧
    runs (exec (.enter 9 7 20 70115 1) (cell blocks)) (fun t => decide (t.blocks.lots.map (·.lot) = [9])) = true ∧
    runs (exec .outgoingLineSent (lineAt { OperatorLine.powerOn with sending := some (.reply .ok), waiting := some (.enter 9 7 20 70115 1) }))
      (fun t => decide (t.blocks.lots.map (·.lot) = [9])) = true := by decide +kernel

theorem sample_image_inRange : WorkingCopy.inRange image := by
  repeat' apply And.intro
  all_goals decide +kernel

theorem test_hyps_StepKeepsClockAndImageSound : (cell blocks).sound ∧
    runs (step (cell blocks)) (fun t => decide (t.clock = 100001)) = true :=
  ⟨⟨by decide, fun _ => sample_image_inRange, fun _ => by decide⟩, by decide +kernel⟩

/-- The cell at its limits: sixteen records with eight commitments, one of them in SETUP with its walk and one INBOUND with its
DECLINE due. -/
def crowded : Blocks :=
  let b := setup .running (walk (some 1) true) none
  { b with
    lots := (List.range 8).map (fun i => lot (i + 1) .finished) ++ (List.range 6).map (fun i => lot (i + 11) .queued) ++
      [inbound 20, { lot 40 .setup with account := some (Account.fresh 20) }]
    custody := ⟨[⟨20, .decline, 9⟩], []⟩ }

/-- A window about to close on an own best bid whose record is gone, with 7 commitments. -/
def unrecorded : State :=
  { cell { blocks with lots := { offered with offer := some ⟨.sent, none, some (60, 5)⟩ } ::
      (List.range 7).map (fun i => lot (i + 11) .queued) } with pending := [.bidWindowClose 1] }

/-- An OFFER heard with 7 commitments receives a bid (R47), and the window that closes then is won here (R61, R64; log 50). -/
theorem test_hyps_StepKeepsTheLimits_unrecorded : soundly unrecorded.blocks = true ∧ unrecorded.blocks.commitmentsKept ∧
    runs (step unrecorded) (fun t => decide (t.blocks.commitments = 8) && soundly t.blocks) = true ∧
    runs (exec (.offerHeard 9 ⟨99, 7, 70115, 1, 1, 20, 12, 2, 211⟩) unrecorded) (fun t =>
      decide (t.blocks.bids.map (·.lot) = [99] ∧ t.blocks.commitments = 8) && runs (step t) (fun u =>
        decide (u.blocks.commitments = 9 ∧ (u.blocks.lot? 1).map (·.state.committed) = some true) && soundly u.blocks)) = true := by
  decide +kernel

theorem test_hyps_StepKeepsTheLimits_closes : unrecorded.closesUnrecorded ∧ ¬(cell (testing .testing)).closesUnrecorded :=
  ⟨⟨{ offered with offer := some ⟨.sent, none, some (60, 5)⟩ }, ⟨.sent, none, some (60, 5)⟩, 60, by decide +kernel, by decide +kernel,
    by decide +kernel, by decide +kernel, by decide +kernel, by decide +kernel⟩, fun ⟨_, _, _, h, _⟩ => by simp [cell] at h⟩

theorem test_hyps_StepKeepsTheLimits : soundly (cell (testing .testing)).blocks = true ∧ soundly full.blocks = true ∧
    soundly fullList = true ∧ soundly crowded = true ∧ crowded.commitments = 8 ∧ crowded.commitmentsKept ∧
    (testing .testing).commitmentsKept ∧ runs (step (cell (testing .testing))) (fun _ => true) = true := by decide +kernel

/-- A touchdown in TESTING and in the void pass, PARKED with the latch set over a held lot, and a lot of 65,535 units placed. -/
theorem test_hyps_StepKeepsTheAccountsBalanced :
    let a := { account with inSockets := 2, placedMain := 12 }
    let test := { testing .testing with lots := [{ testLot with account := some a }] }
    let parked := { testing .parked with
      lots := [{ testLot with account := some a, holds := [hold .thermal] }], td := { (testing .parked).td with latch := true } }
    let pass := { testing .testing with lots := [{ voidLot with account := some { a with phase := .voidPass, voidPass := .running } }] }
    let most := { inTest with lots := [{ testLot with account := some { account with placedMain := 65535, voidFinal := 65525 } }] }
    ([test, parked, pass, most].all soundly = true ∧ [test, parked, pass, most].all balancing = true) ∧
    runs (exec (.tdResult 9 [15, 16, 0, 0, 0, 0, 0, 0]) (cell test)) (fun t => balancing t.blocks) = true ∧
    runs (exec (.dispose 40 (some .thermal) (some .resume)) (cell parked)) (fun t => balancing t.blocks) = true := by
  decide +kernel

/-- The mark of a LOT_EMPTY stays with the touchdown of a scrapped lot, and is taken at its SORTED, which finds no lot (R125). -/
theorem test_lotEmpty_mark_after_scrap :
    let mark := { touchdown .testing with lotEmptyMark := true }
    let b := { testing .testing with
      lots := [{ heldLot 40 .inTest .operator with account := some { account with inSockets := 2 }, ending := true }]
      td := { (testing .testing).td with touchdown := some mark } }
    runs (exec (.tdResult 9 [1, 1, 0, 0, 0, 0, 0, 0]) (cell b)) (fun t => decide (t.blocks.lots = [] ∧
      t.blocks.td.touchdown.map (fun x => (x.kind, x.lotEmptyMark)) = some (.orphan, true))) = true := by decide +kernel

/-- The roll-call cursor waits at the place of an entry removed with its answer on the line, and goes on once that is told sent,
also where no local entry follows (R166). -/
theorem test_cursor_waits_for_outcome :
    let b := sending (listing { blocks with lots := [heldLot 40 .finished .operator] } [localEntry]) ⟨.family, 40, .hold 70115 40 5⟩ true
    let w := { b with family := { b.family with cursor := some ⟨70115, 40, true, none, none⟩ } }
    runs (exec (.dispose 40 (some .operator) (some .scrap)) (cell w)) (fun t => decide (t.blocks.family.entries = [] ∧
      t.blocks.family.cursor = some ⟨70115, 40, true, none, some 0⟩) && runs (exec .frameSent t) (fun u =>
        decide (u.blocks.family.cursor = none))) = true := by decide +kernel

theorem test_hyps_WireFormsRoundTrip : 1 ≤ 62 ∧ (heardCommand 62 (.hold 16777215 4294967295 62)).wellFormed = true ∧
    (heardCommand 1 (.dossier (.summary 5 255 255 65535 (-8388608) 65535 65535 65535 65535))).wellFormed = true ∧
    receiveFrame 5 (frameIdentifier 62 (.hold 16777215 4294967295 62)) (frameBytes (.hold 16777215 4294967295 62)) =
      .holdHeard 62 16777215 4294967295 62 ∧ (List.replicate 8 (0 : Byte)).length = 8 ∧
    (([0x12, 0, 0] : List Byte).map BitVec.toNat).sum % 256 ≠ 0 := by decide +kernel

end Sys2Proof.Tests
end

section
/-! Which rules can change the bid records (R56): most leave them alone, some drop them, and none of those that the reception of
a frame can call makes one. -/

namespace Sys2Proof.Machine

variable (b : Blocks) (c : Ctx)

/-! ## Rules that leave the bid records alone -/

theorem foldl_bids {α : Type} (f : Blocks → α → Blocks) (hf : ∀ b x, (f b x).bids = b.bids) (l : List α) :
    (l.foldl f b).bids = b.bids := by
  induction l generalizing b with
  | nil => rfl
  | cons x l ih => exact (ih (f b x)).trans (hf b x)

theorem Blocks.forLots_bids (l : List Nat) (f : Blocks → Nat → Blocks) (hf : ∀ b x, (f b x).bids = b.bids) :
    (b.forLots l f).bids = b.bids := foldl_bids b f hf l

@[simp] theorem Blocks.abandonWindow_bids (lot : Nat) (cause : AbandonCause) (retry : Option Nat) :
    (b.abandonWindow lot cause retry).bids = b.bids := by
  unfold Blocks.abandonWindow
  split
  · split <;> simp
  · rfl

@[simp] theorem Blocks.remoteNotSent_bids : b.remoteNotSent.bids = b.bids := by
  unfold Blocks.remoteNotSent
  split <;> simp

@[simp] theorem Blocks.stopDossier_bids (lot : Nat) : (b.stopDossier lot).bids = b.bids := by
  unfold Blocks.stopDossier
  split <;> simp

@[simp] theorem Blocks.raiseHold_bids (lot : Nat) (k : HoldKind) (scope : Scope) (trigger : Option (Int × Int)) (bins : List Nat) :
    (b.raiseHold c lot k scope trigger bins).bids = b.bids := by
  unfold Blocks.raiseHold
  split
  · rfl
  · split
    · rfl
    · dsimp only
      split <;> simp

@[simp] theorem Blocks.raise_bids (lot : Nat) (k : HoldKind) : (b.raise c lot k).bids = b.bids :=
  Blocks.raiseHold_bids b c lot k .lot none []

@[simp] theorem Blocks.startParked_bids (r : LotRecord) : (b.startParked c r).bids = b.bids := by
  unfold Blocks.startParked Blocks.startTouchdown
  split
  · split <;> simp
  · rfl

@[simp] theorem Blocks.clearLatch_bids : (b.clearLatch c).bids = b.bids := by
  unfold Blocks.clearLatch
  split
  · split <;> simp
  · rfl

@[simp] theorem Blocks.enterTest_bids (lot : Nat) : (b.enterTest c lot).bids = b.bids := by
  unfold Blocks.enterTest Blocks.raiseSites
  dsimp only
  split <;> simp

@[simp] theorem Blocks.sendCommand_bids (cmd : TesterCmd) (o : Origin) : (b.sendCommand cmd o).bids = b.bids := by
  simp [Blocks.sendCommand]

@[simp] theorem Blocks.faultCommand_bids (cause : FaultCause) : (b.faultCommand cause).bids = b.bids := by
  unfold Blocks.faultCommand
  split
  · split
    · rfl
    · dsimp only
      split
      · split <;> simp
      · simp
      · simp
      · simp
  · rfl

@[simp] theorem Blocks.faultEngine_bids (cause : FaultCause) : (b.faultEngine c cause).bids = b.bids := by
  unfold Blocks.faultEngine
  split
  · rfl
  · dsimp only
    split <;> simp

@[simp] theorem Blocks.endWalk_bids (lot : Nat) : (b.endWalk c lot).bids = b.bids := by
  simp [Blocks.endWalk]

@[simp] theorem Blocks.chainEnd_bids : (b.chainEnd c).bids = b.bids := by
  unfold Blocks.chainEnd
  split
  · rfl
  · dsimp only
    split
    · rfl
    · split
      · simp
      · split
        · simp
        · split
          · split <;> simp
          · split <;> simp

@[simp] theorem Blocks.onUnheld_bids (lot : Nat) : (b.onUnheld c lot).bids = b.bids := by
  unfold Blocks.onUnheld Blocks.endUnheld
  split
  · split
    · rfl
    · split
      · split
        · split
          · split <;> simp
          · rfl
        · rfl
      · simp
      · simp
      · rfl
  · rfl

@[simp] theorem Blocks.applyFamilyHolds_bids : (b.applyFamilyHolds c).bids = b.bids := by
  refine Blocks.forLots_bids b _ _ (fun b lot => ?_)
  unfold Blocks.applyFamilyHold
  split
  · split <;> simp
  · rfl

@[simp] theorem Blocks.endFamilyHold_bids (lot : Nat) : (b.endFamilyHold c lot).bids = b.bids := by
  unfold Blocks.endFamilyHold Blocks.removeFamilyHold
  split
  · split <;> simp
  · rfl

@[simp] theorem Blocks.endFamilyHolds_bids : (b.endFamilyHolds c).bids = b.bids :=
  Blocks.forLots_bids b _ _ (fun b lot => Blocks.endFamilyHold_bids b c lot)

@[simp] theorem Blocks.placeLow_bids (f : Frame) : (b.placeLow c f).1.bids = b.bids := by
  obtain ⟨l, cu, h⟩ := placeLow_eq c b f
  rw [h]

@[simp] theorem Blocks.startRollcall_bids : (b.startRollcall c).bids = b.bids := by
  unfold Blocks.startRollcall
  split
  · rfl
  · have h := Blocks.placeLow_bids (b.modFamily (fun f => { f with rollcallDue := true })) c ⟨.family, 0, .rollcall⟩
    unfold Blocks.placeRollcall
    split <;> rename_i heq <;> rw [heq] at h <;> simpa using h

@[simp] theorem Blocks.cursorLeaves_bids (family lot : Nat) : (b.cursorLeaves family lot).bids = b.bids := by
  unfold Blocks.cursorLeaves Blocks.cursorAt
  split
  · split
    · rfl
    · split
      · split <;> rfl
      · rfl
  · rfl

@[simp] theorem Blocks.noteEscapes_bids (family lot raiser : Nat) : (b.noteEscapes family lot raiser).bids = b.bids :=
  foldl_bids b _ (fun b _ => Blocks.note_bids b _) _

@[simp] theorem Blocks.dropClear_bids (family lot : Nat) : (b.dropClear family lot).bids = b.bids := by
  unfold Blocks.dropClear
  split <;> simp

@[simp] theorem Blocks.makeClearDue_bids (family lot : Nat) : (b.makeClearDue family lot).bids = b.bids := by
  unfold Blocks.makeClearDue
  dsimp only
  split
  · rfl
  · split
    · rfl
    · split <;> simp

@[simp] theorem Blocks.abandonAll_bids : b.abandonAll.bids = b.bids :=
  Blocks.forLots_bids b _ _ (fun b lot => Blocks.abandonWindow_bids b lot _ _)

/-! ## Rules that may drop bid records and make none -/

theorem foldl_bids_subset {α : Type} (f : Blocks → α → Blocks) (hf : ∀ b x, (f b x).bids ⊆ b.bids) (l : List α) :
    (l.foldl f b).bids ⊆ b.bids := by
  induction l generalizing b with
  | nil => exact List.Subset.refl _
  | cons x l ih => exact List.Subset.trans (ih (f b x)) (hf b x)

theorem Blocks.dropBid_bids_subset (lot : Nat) : (b.dropBid lot).bids ⊆ b.bids := List.filter_sublist.subset

theorem Blocks.offerBack_bids_subset (lot : Nat) : (b.offerBack c lot).bids ⊆ b.bids := by
  unfold Blocks.offerBack
  split
  · split
    · exact Blocks.dropBid_bids_subset b lot
    · exact List.Subset.refl _
  · exact List.Subset.refl _

theorem Blocks.announceListed_bids_subset (family : Nat) : (b.announceListed c family).bids ⊆ b.bids := by
  unfold Blocks.announceListed
  rw [Blocks.applyFamilyHolds_bids]
  exact foldl_bids_subset b _ (fun b (r : BidRecord) => Blocks.dropBid_bids_subset b r.lot) _

theorem Blocks.announceFlag_bids_subset : (b.announceFlag c).bids ⊆ b.bids := by
  unfold Blocks.announceFlag
  rw [Blocks.applyFamilyHolds_bids]
  exact List.Subset.trans (foldl_bids_subset _ _ (fun b (r : BidRecord) => Blocks.dropBid_bids_subset b r.lot) _)
    (foldl_bids_subset b _ (fun b lot => Blocks.offerBack_bids_subset (b.cancelFrames (Frame.isOffer lot)) c lot) _)

theorem Blocks.refuseEntry_bids_subset : (b.refuseEntry c).bids ⊆ b.bids := by
  unfold Blocks.refuseEntry
  dsimp only
  split
  · exact List.Subset.refl _
  · exact Blocks.announceFlag_bids_subset (b.modFamily _) c

theorem Blocks.storeEntry_bids_subset (e : FamilyEntry) : (b.storeEntry c e).bids ⊆ b.bids := by
  unfold Blocks.storeEntry
  dsimp only
  split
  · simp
  · exact List.Subset.trans (Blocks.announceListed_bids_subset _ c e.family) (by simp)

theorem Blocks.makeLocalEntry_bids_subset (lot : Nat) : (b.makeLocalEntry c lot).bids ⊆ b.bids := by
  unfold Blocks.makeLocalEntry
  split
  · exact List.Subset.refl _
  · split
    · split <;> simp
    · split
      · simpa using Blocks.storeEntry_bids_subset (b.dropClear _ lot) c _
      · exact Blocks.refuseEntry_bids_subset b c

theorem Blocks.fillGap_bids_subset : (b.fillGap c).bids ⊆ b.bids := by
  unfold Blocks.fillGap
  split
  · split
    · exact Blocks.makeLocalEntry_bids_subset b c _
    · exact List.Subset.refl _
  · exact List.Subset.refl _

theorem Blocks.removeEntry_bids_subset (family lot : Nat) : (b.removeEntry c family lot).bids ⊆ b.bids := by
  unfold Blocks.removeEntry
  split
  · exact List.Subset.refl _
  · dsimp only
    rw [Blocks.endFamilyHolds_bids, Blocks.applyFamilyHolds_bids, apply_ite Blocks.bids, Blocks.startRollcall_bids, ite_self]
    exact List.Subset.trans (Blocks.fillGap_bids_subset _ c) (by split <;> simp)

theorem Blocks.removeRecord_bids_subset (lot : Nat) : (b.removeRecord c lot).bids ⊆ b.bids := by
  unfold Blocks.removeRecord Blocks.endLocalEntry
  split
  · exact List.Subset.refl _
  · dsimp only
    split
    · split
      · exact Blocks.removeEntry_bids_subset _ c _ lot
      · exact List.Subset.refl _
    · exact List.Subset.refl _

theorem Blocks.toldUnsent_bids_subset (e : SlotEntry) : (b.toldUnsent c e).bids ⊆ b.bids := by
  unfold Blocks.toldUnsent
  split
  · exact Blocks.offerBack_bids_subset b c _
  · exact Blocks.dropBid_bids_subset b _
  · split <;> simp
  · simp
  · exact List.Subset.refl _
  · split <;> simp
  · exact List.Subset.refl _

theorem Blocks.enterQuiet_bids_subset : (b.enterQuiet c).bids ⊆ b.bids :=
  foldl_bids_subset _ _ (fun b e => Blocks.toldUnsent_bids_subset b c e) _

theorem Blocks.withdraw_bids_subset : (b.withdraw c).bids ⊆ b.bids := by
  unfold Blocks.withdraw
  dsimp only
  rw [apply_ite Blocks.bids, Blocks.remoteNotSent_bids, ite_self, Blocks.abandonAll_bids]
  exact List.Subset.trans (foldl_bids_subset _ _ (fun b lot => Blocks.removeRecord_bids_subset b c lot) _) (List.nil_subset _)

/-- No bid record is made as a frame is received, whatever the link state becomes. -/
theorem Blocks.reception_bids_subset : (b.reception c).bids ⊆ b.bids := by
  unfold Blocks.reception Blocks.deriveLink
  dsimp only
  split
  · exact List.Subset.refl _
  · split
    · exact List.Subset.trans (Blocks.enterQuiet_bids_subset _ c) (by simp)
    · exact List.Subset.trans (Blocks.withdraw_bids_subset _ c) (by simp)
    · simp

end Sys2Proof.Machine
end

section
/-! The lot ids of the table (R1, R17): which rules leave them among those there were, path by path and request by request. Only
ENTER and an AWARD make a record; every other rule is made of the plain changes of `Steady`. -/

namespace Sys2Proof.Machine

/-! ## The lot ids of the table -/

/-- Every record of the lot table has its lot id among `ids`. -/
def Blocks.lotsAmong (ids : List Nat) (b : Blocks) : Prop := b.lotIds ⊆ ids

theorem Blocks.lotsAmong_congr {ids : List Nat} {b b' : Blocks} (h : b'.lots = b.lots) : b'.lotsAmong ids ↔ b.lotsAmong ids := by
  unfold Blocks.lotsAmong Blocks.lotIds
  rw [h]

theorem Blocks.lotsAmong_of_lots_nil {ids : List Nat} {b : Blocks} (h : b.lots = []) : b.lotsAmong ids := by
  simp [Blocks.lotsAmong, Blocks.lotIds, h]

@[simp] theorem Blocks.lotsAmong_beginLine (ids : List Nat) (b : Blocks) : b.beginLine.lotsAmong ids ↔ b.lotsAmong ids := Iff.rfl

theorem mem_insertBy {α : Type} {le : α → α → Bool} {x y : α} {l : List α} (h : y ∈ insertBy le x l) : y = x ∨ y ∈ l := by
  induction l with
  | nil => simpa [insertBy] using h
  | cons z l ih =>
    unfold insertBy at h
    split at h
    · simpa using h
    · rcases List.mem_cons.1 h with rfl | h
      · simp
      · exact (ih h).imp_right (List.mem_cons_of_mem z)

/-- A new record brings its own lot id and no other. -/
theorem Blocks.lotsAmong_addLot {ids : List Nat} {b : Blocks} {r : LotRecord} (hr : r.lot ∈ ids) (h : b.lotsAmong ids) :
    (b.addLot r).lotsAmong ids := by
  intro id hid
  obtain ⟨x, hx, rfl⟩ := List.mem_map.1 hid
  rcases mem_insertBy hx with rfl | hx
  · exact hr
  · exact h (List.mem_map_of_mem hx)

/-- No plain change a rule is made of brings a lot id into the table. -/
theorem steadyEvents_lotsAmong (ids : List Nat) : SteadyEvents (Blocks.lotsAmong ids) where
  note n h := (Blocks.lotsAmong_congr (Blocks.note_lots _ n)).2 h
  lots _ h hl := List.Subset.trans hl.subset h
  bids _ h _ := h
  bid _ h _ _ := h
  custody _ h := h
  setup _ h := h
  remote _ h := h
  td _ h _ := h
  family _ h _ _ := h
  release _ h _ _ := h
  ports _ h _ _ := h
  thin _ h _ _ := h
  fill _ _ _ h _ _ := h
  clash h := h
  link _ h _ := h

theorem steady_lotsAmong (ids : List Nat) : Steady (Blocks.lotsAmong ids) := (steadyEvents_lotsAmong ids).toSteady

/-! ## The paths of a command to the blocks -/

section
variable {ids : List Nat} {s : State} {rule : Ctx → Blocks → Blocks}

theorem lotsAmong_elapse (ms : Nat) (hs : s.blocks.lotsAmong ids) : (s.elapse ms).blocks.lotsAmong ids := by
  unfold State.elapse
  split
  · exact hs
  · dsimp only
    split <;> exact hs

theorem lotsAmong_elapseTo (t : Nat) (hs : s.blocks.lotsAmong ids) : (s.elapseTo t).blocks.lotsAmong ids := by
  rcases State.elapseTo_cases s t with h | ⟨_, h⟩ <;> rw [h]
  · exact hs
  · exact lotsAmong_elapse _ hs

theorem lotsAmong_take (hr : (rule s.ctx s.blocks).lotsAmong ids) (hs : s.blocks.lotsAmong ids) :
    (s.take rule).blocks.lotsAmong ids := by
  unfold State.take
  split
  · exact hr
  · exact hs

theorem lotsAmong_act (hr : (rule s.ctx s.blocks).lotsAmong ids) (hs : s.blocks.lotsAmong ids) :
    (s.act rule).blocks.lotsAmong ids :=
  lotsAmong_take (steady_settle (steady_lotsAmong ids) s.ctx hr) hs

theorem lotsAmong_expire (deadline : Option Nat) (hr : ∀ c b, b.lotsAmong ids → (rule c b).lotsAmong ids)
    (hs : s.blocks.lotsAmong ids) : (s.expire deadline rule).blocks.lotsAmong ids := by
  unfold State.expire
  split
  · rename_i t
    split
    · have h := lotsAmong_elapseTo t hs
      exact lotsAmong_act (hr _ _ h) h
    · exact hs
  · exact hs

theorem lotsAmong_portMessage (port : Port) (hr : ∀ c b, b.lotsAmong ids → (rule c b).lotsAmong ids)
    (hs : s.blocks.lotsAmong ids) : (s.portMessage port rule).blocks.lotsAmong ids := by
  unfold State.portMessage
  split
  · exact hs
  · exact lotsAmong_act (hr _ _ hs) hs

theorem lotsAmong_hear (src : Nat) (f : FrameData) (hr : s.received.lotsAmong ids → (rule s.ctx s.received).lotsAmong ids)
    (hs : s.blocks.lotsAmong ids) : (s.hear src f rule).blocks.lotsAmong ids := by
  have hrec : s.received.lotsAmong ids := steady_reception (steadyEvents_lotsAmong ids) s.ctx hs
  unfold State.hear
  split
  · refine lotsAmong_act ?_ hs
    dsimp only
    split
    · exact steady_clashCheck (steady_lotsAmong ids) _ _ _ _ hrec
    · split
      · exact hr hrec
      · exact hrec
  · exact hs

theorem lotsAmong_onLine (hr : (rule s.ctx s.blocks).lotsAmong ids) (hs : s.blocks.lotsAmong ids) :
    (s.onLine rule).blocks.lotsAmong ids := by
  unfold State.onLine
  split
  · exact hr
  · exact hs

end

/-! ## The requests of the operator -/

section
variable {ids : List Nat} {b : Blocks}

theorem lotsAmong_enterRule (lot product qty family priority : Nat) (c : Ctx) (hl : lot ∈ ids) (h : b.lotsAmong ids) :
    (enterRule lot product qty family priority c b).lotsAmong ids := by
  unfold enterRule
  split
  · exact h
  · exact steady_applyFamilyHold (steady_lotsAmong ids) c lot (Blocks.lotsAmong_addLot hl h)

theorem lotsAmong_arriveRule (lot : Nat) (c : Ctx) (h : b.lotsAmong ids) : (arriveRule lot c b).lotsAmong ids := by
  have hP := steady_lotsAmong ids
  unfold arriveRule
  split
  · exact h
  · split
    · exact h
    · exact steady_applyFamilyHold hP c lot (steady_answerDue hP _ _ _ (steady_modLot hP _ _ (fun _ => rfl) h))

theorem lotsAmong_recallRule (lot : Nat) (c : Ctx) (h : b.lotsAmong ids) : (recallRule lot c b).lotsAmong ids := by
  have hP := steady_lotsAmong ids
  unfold recallRule
  split
  · exact h
  · split
    · exact h
    · split
      · exact h
      · split
        · exact h
        · exact steady_answerDue hP _ _ _ (steady_modLot hP _ _ (fun _ => rfl) h)

theorem lotsAmong_reofferRule (lot : Nat) (c : Ctx) (h : b.lotsAmong ids) : (reofferRule lot c b).lotsAmong ids := by
  unfold reofferRule
  split
  · exact h
  · split
    · exact h
    · split
      · exact h
      · exact steady_modLot (steady_lotsAmong ids) _ _ (fun _ => rfl) h

theorem lotsAmong_pauseRule (c : Ctx) (h : b.lotsAmong ids) : (pauseRule c b).lotsAmong ids := by
  unfold pauseRule
  split
  · exact h
  · exact h
  · split <;> exact h
  · exact h
  · exact h

theorem lotsAmong_continueRule (c : Ctx) (h : b.lotsAmong ids) : (continueRule c b).lotsAmong ids := by
  have hP := steady_lotsAmong ids
  unfold continueRule
  split
  · exact h
  · exact h
  · split
    · exact steady_completeStep hP c h
    · exact h
  · split
    · exact steady_completeStep hP c h
    · exact h
  · exact steady_continuePaused hP c h

theorem lotsAmong_abortRule (c : Ctx) (h : b.lotsAmong ids) : (abortRule c b).lotsAmong ids := by
  have hP := steady_lotsAmong ids
  unfold abortRule
  split
  · exact h
  · exact h
  · exact steady_raise hP c _ _ (steady_modLot hP _ _ (fun _ => rfl) (steady_dropWalk hP c h))

theorem lotsAmong_preloadRule (slot program : Nat) (c : Ctx) (h : b.lotsAmong ids) :
    (preloadRule slot program c b).lotsAmong ids := by
  have hP := steady_lotsAmong ids
  unfold preloadRule
  split
  · exact h
  · split
    · exact h
    · split
      · exact h
      · split
        · exact h
        · exact steady_modSetup hP (fun u => u.setSlot slot .invalid (some program)) (steady_operatorCommand hP c (.load slot program) h)

theorem lotsAmong_evictRule (slot : Nat) (c : Ctx) (h : b.lotsAmong ids) : (evictRule slot c b).lotsAmong ids := by
  have hP := steady_lotsAmong ids
  unfold evictRule
  split
  · exact h
  · split
    · exact h
    · split
      · exact h
      · exact steady_modSetup hP (fun u => u.invalidate slot) (steady_operatorCommand hP c (.evict slot) h)

theorem lotsAmong_startRule (c : Ctx) (h : b.lotsAmong ids) : (startRule c b).lotsAmong ids := by
  unfold startRule
  split
  · exact h
  · split
    · exact h
    · split
      · exact h
      · exact steady_clearLatch (steady_lotsAmong ids) c h

theorem lotsAmong_stopRule (c : Ctx) (h : b.lotsAmong ids) : (stopRule c b).lotsAmong ids := by
  unfold stopRule
  dsimp only
  split
  · exact h
  · split
    · exact h
    · exact steady_note (steady_lotsAmong ids) _ (b := b.setLatch) h

theorem lotsAmong_abortTdRule (c : Ctx) (h : b.lotsAmong ids) : (abortTdRule c b).lotsAmong ids := by
  have hP := steady_lotsAmong ids
  unfold abortTdRule
  split
  · exact h
  · split
    · exact steady_abortTouchdown hP c _ h
    · exact steady_abortTouchdown hP c _ h
    · exact steady_endTouchdown hP c _ h

theorem lotsAmong_siteEnableRule (site : Nat) (c : Ctx) (h : b.lotsAmong ids) : (siteEnableRule site c b).lotsAmong ids := by
  have hP := steady_lotsAmong ids
  unfold siteEnableRule
  split
  · exact h
  · split
    · exact h
    · refine steady_note hP _ ?_
      split
      · exact steady_modLot hP _ _ (fun _ => rfl) (b := b.modTd _) h
      · exact h

theorem lotsAmong_siteDisableRule (site : Nat) (c : Ctx) (h : b.lotsAmong ids) : (siteDisableRule site c b).lotsAmong ids := by
  have hP := steady_lotsAmong ids
  unfold siteDisableRule
  split
  · exact h
  · split
    · exact h
    · have h1 : ((b.modTd (fun u => u.setSite site (.held .operator))).note
        (.siteHeld ((b.modTd (fun u => u.setSite site (.held .operator))).testLot?.map (·.lot)) site .operator [])).lotsAmong ids :=
        steady_note hP _ (b := b.modTd _) h
      dsimp only
      split
      · split
        · exact steady_raiseSites hP c _ h1
        · exact h1
      · exact h1

theorem lotsAmong_holdRule (lot : Nat) (c : Ctx) (h : b.lotsAmong ids) : (holdRule lot c b).lotsAmong ids := by
  unfold holdRule
  split
  · exact h
  · split
    · exact h
    · split
      · exact h
      · split
        · exact h
        · exact steady_raise (steady_lotsAmong ids) c _ _ h

theorem lotsAmong_disposeRule (lot : Nat) (kind : Option HoldKind) (disposition : Option Disposition) (c : Ctx)
    (h : b.lotsAmong ids) : (disposeRule lot kind disposition c b).lotsAmong ids := by
  have hP := steady_lotsAmong ids
  unfold disposeRule
  split
  · split
    · exact h
    · split
      · exact steady_dispose hP c _ _ _ _ h
      · exact steady_disposeRemote hP c _ _ _ h
  · exact h

theorem lotsAmong_purgeRule (family lot : Nat) (c : Ctx) (h : b.lotsAmong ids) : (purgeRule family lot c b).lotsAmong ids := by
  unfold purgeRule
  split
  · exact h
  · split
    · split
      · exact steady_removeEntry (steady_lotsAmong ids) c _ _ h
      · exact h
    · exact h

/-- The lot ids that a request can bring into the table: ENTER its own (R14). -/
def Instr.entersLot : Instr → List Nat
  | .enter lot .. => [lot]
  | _ => []

/-- A request brings the lot of an ENTER into the table and no other. -/
theorem lotsAmong_requestRule (cmd : Instr) (c : Ctx) (he : Instr.entersLot cmd ⊆ ids) (h : b.lotsAmong ids) :
    (requestRule cmd c b).lotsAmong ids := by
  unfold requestRule
  split
  · exact lotsAmong_enterRule _ _ _ _ _ c (he (List.mem_singleton_self _)) h
  · exact lotsAmong_arriveRule _ c h
  · exact lotsAmong_recallRule _ c h
  · exact lotsAmong_reofferRule _ c h
  · exact lotsAmong_pauseRule c h
  · exact lotsAmong_continueRule c h
  · exact lotsAmong_abortRule c h
  · exact lotsAmong_preloadRule _ _ c h
  · exact lotsAmong_evictRule _ c h
  · exact lotsAmong_startRule c h
  · exact lotsAmong_stopRule c h
  · exact lotsAmong_abortTdRule c h
  · exact lotsAmong_siteEnableRule _ c h
  · exact lotsAmong_siteDisableRule _ c h
  · exact lotsAmong_holdRule _ c h
  · exact lotsAmong_disposeRule _ _ _ c h
  · exact lotsAmong_purgeRule _ _ c h
  · exact h
  · exact h
  · exact h
  · exact h

theorem lotsAmong_faultRule (cmd : Instr) (c : Ctx) (h : b.lotsAmong ids) : (faultRule cmd c b).lotsAmong ids := by
  unfold faultRule
  split <;> exact h

theorem lotsAmong_parsedRule (cmd : Instr) (c : Ctx) (he : Instr.entersLot cmd ⊆ ids) (h : b.lotsAmong ids) :
    (parsedRule cmd c b).lotsAmong ids := by
  unfold parsedRule
  split
  · exact steady_afterReply (steady_lotsAmong ids) c (lotsAmong_requestRule cmd c he h)
  · exact lotsAmong_faultRule cmd c h

theorem lotsAmong_lineRule (cmd : Instr) (c : Ctx) (he : Instr.entersLot cmd ⊆ ids) (h : b.lotsAmong ids) :
    (lineRule cmd c b).lotsAmong ids := by
  unfold lineRule
  split
  · exact h
  · split
    · split <;> exact h
    · exact lotsAmong_parsedRule cmd c he h

/-- A reply that has gone out lets the waiting line enter its lot. -/
theorem lotsAmong_outgoingSent (c : Ctx) (he : ∀ cmd, b.op.waiting = some cmd → Instr.entersLot cmd ⊆ ids) (h : b.lotsAmong ids) :
    (b.outgoingSent c).lotsAmong ids := by
  unfold Blocks.outgoingSent
  split
  · unfold Blocks.parseWaiting
    split
    · exact h
    · rename_i cmd hw
      exact lotsAmong_parsedRule (b := { b.lineSent with op := _ }) cmd c (he cmd hw) h
  · exact h

end

/-! ## The frames heard, and resets -/

section
variable {ids : List Nat} {b : Blocks}

theorem lotsAmong_collect (c : Ctx) (src : Nat) (segment : DossierSegment) (h : b.lotsAmong ids) :
    (b.collect c src segment).lotsAmong ids := by
  have hP := steady_lotsAmong ids
  cases segment with
  | identity lot product family priority qty len next disposed count =>
    unfold Blocks.collect
    dsimp -zeta only
    extract_lets b1
    have h1 : b1.lotsAmong ids := by
      dsimp only [b1]
      split
      · split
        · exact h
        · exact steady_removeRecord hP c _ h
      · exact h
    split
    · exact h1
    · split
      · exact h1
      · split
        · exact steady_removeRecord hP c _ h1
        · split
          · exact h1
          · split
            · exact steady_modLot hP _ _ (fun _ => rfl) h1
            · exact steady_removeRecord hP c _ h1
  | route lot ins =>
    unfold Blocks.collect
    dsimp only
    split
    · exact h
    · split
      · exact h
      · split
        · exact steady_collectionDone hP c _ (steady_modLot hP _ _ (fun _ => rfl) h)
        · exact steady_removeRecord hP c _ h
  | summary seg no station declared adj good rejects voidFinal scrapped =>
    unfold Blocks.collect
    dsimp only
    split
    · exact h
    · split
      · exact steady_collectionDone hP c _ (steady_modLot hP _ _ (fun _ => rfl) h)
      · exact steady_removeRecord hP c _ h
  | unnumbered n => exact h

/-- An AWARD heard makes a record only where it names this station and a bid record with its sender stands (R59). -/
theorem lotsAmong_judgeAward (c : Ctx) (src lot winner : Nat)
    (hwon : winner = c.own → ∀ q ∈ b.bids, q.lot = lot → q.offerer = src → lot ∈ ids) (h : b.lotsAmong ids) :
    (b.judgeAward c src lot winner).lotsAmong ids := by
  have hdrop := steady_dropBid (steady_lotsAmong ids) lot h
  unfold Blocks.judgeAward
  split
  · rename_i q hq
    have hlot : q.lot = lot := by simpa using List.find?_some hq
    split
    · exact h
    · rename_i hsrc
      split
      · exact hdrop
      · rename_i hown
        dsimp only
        split
        · exact hdrop
        · exact Blocks.lotsAmong_addLot
            (hwon (by simpa using hown) q (List.mem_of_find?_eq_some hq) hlot (by simpa using hsrc)) hdrop
  · exact h

theorem LotRecord.afterReset_lot (r : LotRecord) : r.afterReset.lot = r.lot := by
  unfold LotRecord.afterReset
  dsimp only
  split <;> rfl

theorem lotsAmong_blocksWarmReset (c : Ctx) (byPin : Bool) (h : b.lotsAmong ids) : (b.warmReset c byPin).lotsAmong ids := by
  have hP := steady_lotsAmong ids
  unfold Blocks.warmReset
  dsimp only
  refine steady_settle hP c (steady_placeAllShipped hP c (steady_unsettleFamilies hP c ?_))
  refine steady_modFamily hP _ (Nat.le_max_right _ _) (Nat.le_max_right _ _) (steady_raiseRestarts hP c _ ?_)
  refine steady_freeEnding hP c (steady_dropCollections hP c ?_)
  refine steady_mapLots hP _ LotRecord.afterReset_lot (b := Blocks.modSetup _ _) ?_
  refine steady_modSetup hP _ ?_
  refine steady_modTd hP _ (Nat.zero_le _) (steady_resetTouchdown hP ?_)
  exact steady_unplaceRing hP (b := { Blocks.note _ _ with link := _, remote := _, bids := _ })
    (steady_note hP _ (b := { b with op := _ }) h)

end

/-! ## Starting -/

theorem State.enterConfigFault_lots (s : State) (cause : ConfigCause) (op : OperatorLine) :
    (s.enterConfigFault cause op).blocks.lots = [] := by
  simp [State.enterConfigFault, Blocks.blank, Blocks.powerOn]

theorem State.enterConfigFault_bids (s : State) (cause : ConfigCause) (op : OperatorLine) :
    (s.enterConfigFault cause op).blocks.bids = [] := by
  simp [State.enterConfigFault, Blocks.blank, Blocks.powerOn]

theorem State.judgeStraps_lots (s : State) (op : OperatorLine) : (s.judgeStraps op).blocks.lots = [] := by
  unfold State.judgeStraps
  split
  · simp only [State.startBlocks, Blocks.beginLine_lots, Blocks.modFamily_lots, Blocks.note_lots]; rfl
  · exact State.enterConfigFault_lots s _ op

theorem State.judgeStraps_bids (s : State) (op : OperatorLine) : (s.judgeStraps op).blocks.bids = [] := by
  unfold State.judgeStraps
  split
  · simp only [State.startBlocks, Blocks.beginLine_bids, Blocks.modFamily_bids, Blocks.note_bids]; rfl
  · exact State.enterConfigFault_bids s _ op

theorem lotsAmong_stateWarmReset {ids : List Nat} {s : State} (straps : BitVec 6) (hs : s.blocks.lotsAmong ids) :
    (s.warmReset straps).blocks.lotsAmong ids := by
  unfold State.warmReset
  dsimp only
  split
  · exact hs
  · exact hs
  · split
    · exact Blocks.lotsAmong_of_lots_nil (State.judgeStraps_lots _ _)
    · exact Blocks.lotsAmong_of_lots_nil (State.enterConfigFault_lots _ _ _)
  · split
    · exact (Blocks.lotsAmong_beginLine _ _).2 (lotsAmong_blocksWarmReset _ _ hs)
    · exact Blocks.lotsAmong_of_lots_nil (State.enterConfigFault_lots _ _ _)

end Sys2Proof.Machine
end

section
/-! How records enter the lot table (R17): the lot ids that each command can bring in, and the table at the start. -/

namespace Sys2Proof.Machine

/-! ## What a command can bring into the table (R17) -/

/-- The lot ids that a command can bring into the table: of an ENTER its own, of the end of an outgoing line that of an ENTER that
waits, of an AWARD to this station that of a bid record with its sender. -/
def State.entersLot (s : State) : Instr → List Nat
  | .outgoingLineSent => (s.blocks.op.waiting.map Instr.entersLot).getD []
  | .awardHeard src lot winner =>
    if winner = s.straps.toNat then (s.blocks.bids.filter (fun q => q.lot == lot && q.offerer == src)).map (·.lot) else []
  | cmd => Instr.entersLot cmd

theorem Instr.mem_entersLot {id : Nat} {c : Instr} (h : id ∈ Instr.entersLot c) :
    ∃ product qty family priority, c = .enter id product qty family priority := by
  unfold Instr.entersLot at h
  split at h
  · obtain rfl := List.mem_singleton.1 h
    exact ⟨_, _, _, _, rfl⟩
  · cases h

/-- A lot id enters by ENTER, taken at once or after it waited, or by a won bid. -/
theorem State.mem_entersLot {s : State} {c : Instr} {id : Nat} (h : id ∈ s.entersLot c) :
    (∃ product qty family priority, c = .enter id product qty family priority ∨
      c = .outgoingLineSent ∧ s.blocks.op.waiting = some (.enter id product qty family priority)) ∨
    ∃ src q, c = .awardHeard src id s.straps.toNat ∧ q ∈ s.blocks.bids ∧ q.lot = id ∧ q.offerer = src := by
  unfold State.entersLot at h
  split at h
  · cases hw : s.blocks.op.waiting with
    | none => simp [hw] at h
    | some cmd =>
      obtain ⟨product, qty, family, priority, rfl⟩ := Instr.mem_entersLot (c := cmd) (by simpa [hw] using h)
      exact .inl ⟨product, qty, family, priority, .inr ⟨rfl, rfl⟩⟩
  · rename_i src lot winner
    split at h
    · rename_i hown
      obtain ⟨q, hq, rfl⟩ := List.mem_map.1 h
      obtain ⟨hmem, hkey⟩ := List.mem_filter.1 hq
      simp only [Bool.and_eq_true, beq_iff_eq] at hkey
      exact .inr ⟨src, q, by rw [hown, hkey.1], hmem, rfl, hkey.2⟩
    · cases h
  · obtain ⟨product, qty, family, priority, hc⟩ := Instr.mem_entersLot h
    exact .inl ⟨product, qty, family, priority, .inl hc⟩

section
variable {ids : List Nat} {s t : State}

theorem lotsAmong_line (cmd : Instr) (he : Instr.entersLot cmd ⊆ ids) (hs : s.blocks.lotsAmong ids) :
    (s.onLine (lineRule cmd)).blocks.lotsAmong ids :=
  lotsAmong_onLine (lotsAmong_lineRule cmd s.ctx he hs) hs

/-- An AWARD is judged after it has counted as received, which makes no bid record. -/
theorem lotsAmong_award (src lot winner : Nat) (he : s.entersLot (.awardHeard src lot winner) ⊆ ids) (hs : s.blocks.lotsAmong ids) :
    (s.hear src (.award lot winner) (fun c b => b.judgeAward c src lot winner)).blocks.lotsAmong ids := by
  refine lotsAmong_hear src _ (lotsAmong_judgeAward s.ctx src lot winner ?_) hs
  intro hown q hq hlot hsrc
  have hmem : q ∈ s.blocks.bids := Blocks.reception_bids_subset s.blocks s.ctx hq
  have hown' : winner = s.straps.toNat := hown
  apply he
  simp only [State.entersLot, if_pos hown']
  exact List.mem_map.2 ⟨q, List.mem_filter.2 ⟨hmem, by simp [hlot, hsrc]⟩, hlot⟩

theorem lotsAmong_outgoingLineSent (he : s.entersLot .outgoingLineSent ⊆ ids) (hs : s.blocks.lotsAmong ids) :
    (s.onLine (fun c b => b.outgoingSent c)).blocks.lotsAmong ids := by
  refine lotsAmong_onLine (lotsAmong_outgoingSent s.ctx (fun cmd hw => ?_) hs) hs
  simpa [State.entersLot, hw] using he

theorem lotsAmong_imageLoaded (memory : Option (List Byte)) (hs : s.blocks.lotsAmong ids)
    (h : execImageLoaded memory s = .next t) : t.blocks.lotsAmong ids := by
  cases h
  split
  · split
    · exact Blocks.lotsAmong_of_lots_nil (State.judgeStraps_lots _ _)
    · exact Blocks.lotsAmong_of_lots_nil (State.enterConfigFault_lots _ _ _)
    · exact Blocks.lotsAmong_of_lots_nil (State.enterConfigFault_lots _ _ _)
  · exact hs

theorem lotsAmong_ite {p : Prop} [Decidable p] {x y : State} (hx : x.blocks.lotsAmong ids) (hy : y.blocks.lotsAmong ids) :
    (if p then x else y).blocks.lotsAmong ids := by
  split
  · exact hx
  · exact hy

/-- A command brings no lot into the table but those that `State.entersLot` names. -/
theorem exec_lotsAmong (c : Instr) (he : s.entersLot c ⊆ ids) (hs : s.blocks.lotsAmong ids) (h : exec c s = .next t) :
    t.blocks.lotsAmong ids := by
  have hE := steadyEvents_lotsAmong ids
  have hP := steady_lotsAmong ids
  cases c with cases h
  -- power, image, reset
  | powerOn straps => exact Blocks.lotsAmong_of_lots_nil rfl
  | imageLoaded memory => exact lotsAmong_imageLoaded memory hs rfl
  | warmReset straps => exact lotsAmong_ite (lotsAmong_stateWarmReset straps hs) hs
  | resetNAsserted | faultLineDeasserted _ | testBusyChange _ | cancelled _ | portLineIdle _ => exact hs
  -- the operator line
  | enter | arrive | reoffer | pauseWalk | continueWalk | abortSetup | preload | evict | startCell | stopCell | abortTd
  | siteEnable | siteDisable | holdLot | dispose | purge | status | restart | malformedRequest =>
    exact lotsAmong_line _ he hs
  | lineDiscardedBusy =>
    refine lotsAmong_onLine ?_ hs
    split <;> exact hs
  | outgoingLineSent => exact lotsAmong_outgoingLineSent he hs
  -- the floor link
  | sendAttempt => exact lotsAmong_take ((Blocks.lotsAmong_congr rfl).2 hs) hs
  | frameSent => exact lotsAmong_act (steady_attemptSent hE _ hs) hs
  | arbitrationLost => exact lotsAmong_act (steady_attemptFailed hP _ hs) hs
  | transmitError only => exact lotsAmong_act (steady_attemptError hE _ only hs) hs
  | receiveError => exact lotsAmong_ite (lotsAmong_act (steady_receiveError hE _ hs) hs) hs
  | rejoin =>
    have hw := lotsAmong_elapse s.rejoinWait hs
    exact lotsAmong_ite (lotsAmong_act (steady_rejoin hE _ hw) hw) hs
  | frameDiscarded cls kind src =>
    exact lotsAmong_ite (lotsAmong_act (steady_clashCheck hP _ cls kind src (steady_reception hE _ hs)) hs) hs
  | joinLine => exact lotsAmong_act (steady_joinLine hE _ hs) hs
  -- frames heard
  | holdHeard src family lot raiser => exact lotsAmong_hear src _ (steady_holdHeard hP _ family lot raiser) hs
  | clearHeard src family lot raiser => exact lotsAmong_hear src _ (steady_clearHeard hP _ family lot) hs
  | objectHeard src lot reason objected =>
    exact lotsAmong_hear src _ (steady_objectHeard hP _ src lot (objectReasonOf reason) objected) hs
  | awardHeard src lot winner => exact lotsAmong_award src lot winner he hs
  | dossierHeard src segment => exact lotsAmong_hear src _ (lotsAmong_collect _ src segment) hs
  | acceptHeard src lot offerer => exact lotsAmong_hear src _ (steady_acceptHeard hP _ src lot offerer) hs
  | takeHeard src lot offerer => exact lotsAmong_hear src _ (steady_takeHeard hP _ src lot offerer) hs
  | declineHeard src lot offerer => exact lotsAmong_hear src _ (steady_declineHeard hP _ src lot offerer) hs
  | recallHeard src lot winner => exact lotsAmong_hear src _ (steady_recallHeard hP _ src lot winner) hs
  | offerHeard src offer => exact lotsAmong_hear src _ (steady_offerHeard hP _ src offer) hs
  | bidHeard src lot offerer cost => exact lotsAmong_hear src _ (steady_judgeBid hP _ src lot offerer cost) hs
  | rollcallHeard src => exact lotsAmong_hear src _ (steady_startCursor hP) hs
  | intentHeard src lot family => exact lotsAmong_hear src _ (steady_judgeIntent hP _ src lot family) hs
  | shippedHeard src lot family good => exact lotsAmong_hear src _ (steady_judgeShipped hP _ src lot) hs
  | disposeHeard src lot kind disposition requester =>
    refine lotsAmong_hear src _ (fun hr => ?_) hs
    split
    · exact steady_disposeHeard hP _ src lot _ _ hr
    · exact hr
  | disposedHeard src lot kind result requester =>
    refine lotsAmong_hear src _ (fun hr => ?_) hs
    split
    · exact steady_disposedHeard hP _ lot _ _ requester hr
    · exact hr
  -- expiries
  | reofferDeadline lot => exact lotsAmong_expire _ (fun _ _ => steady_modLot hP lot _ (fun _ => rfl)) hs
  | bidWindowClose lot =>
    exact lotsAmong_expire _ (fun c _ => steady_onLot lot _ (fun _ r => steady_closeWindow hP c r)) hs
  | bidRecordExpiry lot => exact lotsAmong_expire _ (fun _ _ => steady_dropBid hP lot) hs
  | acceptTimeout lot =>
    exact lotsAmong_expire _ (fun c _ hb => steady_unsuccessful hP c lot (steady_leaveAwarded hP lot hb)) hs
  | arrivalTimeout lot =>
    exact lotsAmong_expire _ (fun _ _ => steady_onLot lot _ (fun _ r => steady_arrivalExpired hP r)) hs
  | releaseRetryTime lot => exact lotsAmong_expire _ (fun _ _ hb => hb) hs
  | releaseWindowClose lot =>
    exact lotsAmong_expire _ (fun c _ => steady_onLot lot _ (fun _ r => steady_closeRelease hP c r)) hs
  | shippedRetry lot =>
    refine lotsAmong_expire _ (fun c b hb => ?_) hs
    split
    · exact steady_placeShipped hP c _ hb
    · exact hb
  | rollcallRetry =>
    refine lotsAmong_expire _ (fun c b hb => ?_) hs
    split
    · exact steady_placeRollcall hP c hb
    · exact hb
  | rollcallWindowEnd => exact lotsAmong_expire _ (fun c _ => steady_rollcallEnds hP c) hs
  | remoteAnswerTimeout => exact lotsAmong_expire _ (fun _ _ => steady_remoteTimeout hP) hs
  | stepTimeout => exact lotsAmong_expire _ (fun c _ => steady_faultEngine hP c .timeout) hs
  | selectionDeadline => exact lotsAmong_expire _ (fun c _ => steady_faultEngine hP c .timeout) hs
  | operatorCommandTimeout => exact lotsAmong_expire _ (fun c _ => steady_endOperatorCommand hP c) hs
  | kitTaken => exact lotsAmong_expire _ (fun c _ => steady_kitHeld hP c) hs
  | tdTimeout =>
    exact lotsAmong_expire _ (fun c _ hb => steady_note hP .tdTimeout (steady_abortTesting hP c hb)) hs
  -- the setup of the cell
  | soakEnd =>
    have hw := lotsAmong_elapse s.blocks.setup.thermal.soak hs
    exact lotsAmong_ite (lotsAmong_act (steady_soakEnds hP _ hw) hw) hs
  | kitLinesChange lines => exact lotsAmong_ite hs (lotsAmong_take hs hs)
  | testerFault => exact lotsAmong_ite hs (lotsAmong_act (steady_testerFaultTaken hP _ hs) hs)
  | handlerFault => exact lotsAmong_ite hs (lotsAmong_act (steady_handlerFaultTaken hP _ hs) hs)
  | loaded slot => exact lotsAmong_portMessage _ (fun c _ => steady_loadedAnswer hP c slot) hs
  | loadFailed slot => exact lotsAmong_portMessage _ (fun c _ => steady_loadFailedAnswer hP c slot) hs
  | evicted slot => exact lotsAmong_portMessage _ (fun c _ => steady_evictedAnswer hP c slot) hs
  | selected slot => exact lotsAmong_portMessage _ (fun c _ => steady_selectedAnswer hP c slot) hs
  | checkPass => exact lotsAmong_portMessage _ (fun c _ => steady_checkPassAnswer hP c) hs
  | checkFail => exact lotsAmong_portMessage _ (fun c _ => steady_checkFailAnswer hP c) hs
  | atTemp band => exact lotsAmong_portMessage _ (fun c _ => steady_atTempTaken hP c band) hs
  | tempLost => exact lotsAmong_portMessage _ (fun c _ => steady_tempLostTaken hP c) hs
  -- the touchdown cycle
  | tdReady occupied =>
    exact lotsAmong_portMessage _ (fun c _ => steady_ready hP c (occupiedSites occupied)) hs
  | tdResult sequence bins => exact lotsAmong_portMessage _ (fun c _ => steady_result hP c sequence bins) hs
  | sorted => exact lotsAmong_portMessage _ (fun c _ => steady_sortedTaken hP c) hs
  | lotEmpty => exact lotsAmong_portMessage _ (fun c _ => steady_lotEmpty hP c) hs
  | portMessageDiscarded port =>
    exact lotsAmong_ite hs (lotsAmong_take (steady_note hP _ (b := { s.blocks with ports := _ }) hs) hs)
  -- RECALL, a line of the operator as well: Mathlib has its name as a keyword
  | _ => exact lotsAmong_line _ he hs

end

/-! ## The table at the start (R17) -/

/-- With no record the lot table is empty, so is the cell queue, and without bid records nothing is committed. -/
theorem Blocks.nothing_held {b : Blocks} (hl : b.lots = []) (hb : b.bids = []) :
    b.lots = [] ∧ b.queue = [] ∧ b.commitments = 0 := by
  refine ⟨hl, ?_, ?_⟩
  · rw [Blocks.queue, hl]; rfl
  · simp [Blocks.commitments, hl, hb]

theorem powerOn_holds_nothing (s : State) (straps : BitVec 6) : ∃ t, exec (.powerOn straps) s = .next t ∧
    t.blocks.lots = [] ∧ t.blocks.queue = [] ∧ t.blocks.commitments = 0 :=
  ⟨_, rfl, Blocks.nothing_held rfl rfl⟩

theorem imageLoaded_holds_nothing (s : State) (memory : Option (List Byte)) (hr : s.run = .loading) (hh : s.pins.resetHeld = false) :
    ∃ t, exec (.imageLoaded memory) s = .next t ∧ t.blocks.lots = [] ∧ t.blocks.queue = [] ∧ t.blocks.commitments = 0 := by
  refine ⟨_, rfl, ?_⟩
  rw [if_pos (by simp [hr, hh])]
  split
  · exact Blocks.nothing_held (State.judgeStraps_lots _ _) (State.judgeStraps_bids _ _)
  · exact Blocks.nothing_held (State.enterConfigFault_lots _ _ _) (State.enterConfigFault_bids _ _ _)
  · exact Blocks.nothing_held (State.enterConfigFault_lots _ _ _) (State.enterConfigFault_bids _ _ _)

/-- Settles O55: the table is empty at the start, and of each command the lot ids it can bring in are known. -/
theorem recordsEnterByEnterOrWonBid : Obligations.RecordsEnterByEnterOrWonBid := by
  unfold Obligations.RecordsEnterByEnterOrWonBid
  refine ⟨powerOn_holds_nothing, imageLoaded_holds_nothing, ?_⟩
  intro s t c h r hr hnew
  have hamong : t.blocks.lotsAmong (s.blocks.lotIds ++ s.entersLot c) :=
    exec_lotsAmong c (List.subset_append_right _ _) (List.subset_append_left _ _) h
  rcases List.mem_append.1 (hamong (List.mem_map_of_mem hr)) with hold | henter
  · obtain ⟨r0, hr0, heq⟩ := List.mem_map.1 hold
    exact absurd heq (hnew r0 hr0)
  · exact State.mem_entersLot henter

end Sys2Proof.Machine
end

section
/-! The cost of a bid (R49 to R54): saturating sums, the order of the committed lots, the projected setup and the changeover. -/

namespace Sys2Proof.Machine

/-! ## Saturating sums (3.3) -/

/-- Saturation at each addition is saturation of the whole sum. -/
theorem foldl_satAdd {α : Type} (f : α → Nat) (l : List α) (acc : Nat) (h : acc ≤ 65535) :
    l.foldl (fun a x => satAdd a (f x)) acc = min 65535 (acc + (l.map f).sum) := by
  induction l generalizing acc with
  | nil => simpa using h
  | cons x l ih =>
    have hsat : satAdd acc (f x) = min 65535 (acc + f x) := rfl
    rw [List.foldl_cons, ih _ (by omega), List.map_cons, List.sum_cons]
    omega

/-! ## Insertion into an ordered list -/

theorem insertBy_perm {α : Type} (le : α → α → Bool) (x : α) (l : List α) : (insertBy le x l).Perm (x :: l) := by
  induction l with
  | nil => exact .refl _
  | cons y l ih =>
    unfold insertBy
    split
    · exact .refl _
    · exact (ih.cons y).trans (.swap x y l)

theorem sortBy_perm {α : Type} (le : α → α → Bool) (l : List α) : (sortBy le l).Perm l := by
  induction l with
  | nil => exact .refl _
  | cons x l ih => exact (insertBy_perm le x _).trans (ih.cons x)

/-- An element that is after all of a list goes to its end. -/
theorem insertBy_of_forall_after {α : Type} {le : α → α → Bool} {r : α} {l : List α} (h : ∀ y ∈ l, le r y = false) :
    insertBy le r l = l ++ [r] := by
  induction l with
  | nil => rfl
  | cons y l ih =>
    obtain ⟨hy, hl⟩ := List.forall_mem_cons.1 h
    simp [insertBy, hy, ih hl]

/-- An element that is not after the last one leaves it the last. -/
theorem insertBy_append_singleton {α : Type} {le : α → α → Bool} {x r : α} (h : le x r = true) (l : List α) :
    insertBy le x (l ++ [r]) = insertBy le x l ++ [r] := by
  induction l with
  | nil => simp [insertBy, h]
  | cons y l ih =>
    simp only [List.cons_append, insertBy, ih]
    split <;> rfl

/-- The element that every other one comes before is the last in the order; the order need not be transitive. -/
theorem sortBy_getLast? {α : Type} {le : α → α → Bool} {r : α} {l : List α} (hr : r ∈ l) (hself : le r r = true)
    (h : ∀ x ∈ l, x ≠ r → le x r = true ∧ le r x = false) : (sortBy le l).getLast? = some r := by
  suffices hlast : ∃ l', sortBy le l = l' ++ [r] by
    obtain ⟨l', hl'⟩ := hlast
    simp [hl']
  induction l with
  | nil => simp at hr
  | cons x l ih =>
    obtain ⟨hx, hl⟩ := List.forall_mem_cons.1 h
    by_cases hmem : r ∈ l
    · obtain ⟨l', hl'⟩ := ih hmem hl
      have hxr : le x r = true := by
        by_cases heq : x = r
        · rw [heq, hself]
        · exact (hx heq).1
      exact ⟨_, by rw [sortBy, hl', insertBy_append_singleton hxr]⟩
    · obtain rfl : r = x := (List.mem_cons.1 hr).resolve_right hmem
      refine ⟨sortBy le l, insertBy_of_forall_after fun y hy => ?_⟩
      have hyl : y ∈ l := (sortBy_perm le l).mem_iff.1 hy
      exact (hl y hyl (ne_of_mem_of_not_mem hyl hmem)).2

/-! ## The backlog (R49, R50) -/

theorem LotState.committed_iff (st : LotState) : st.committed = true ↔
    st = .inbound ∨ st = .queued ∨ st = .setup ∨ st = .inTest ∨ st = .closing ∨ st = .inboundPending := by
  cases st <;> decide

theorem Blocks.declined_eq_false (b : Blocks) (lot : Nat) :
    b.declined lot = false ↔ ∀ a ∈ b.custody.answers, a.lot = lot → a.kind ≠ .decline := by
  simp [Blocks.declined]

/-- Which records contribute (R49, R78). -/
theorem Blocks.contributes_iff (b : Blocks) (r : LotRecord) : b.contributes r = true ↔
    (r.state = .inbound ∨ r.state = .queued ∨ r.state = .setup ∨ r.state = .inTest ∨ r.state = .closing ∨
      (r.state = .inboundPending ∧ 2 ≤ r.collected)) ∧ ∀ a ∈ b.custody.answers, a.lot = r.lot → a.kind ≠ .decline := by
  rw [← Blocks.declined_eq_false]
  simp only [Blocks.contributes, Bool.and_eq_true, Bool.not_eq_true', LotState.committed_iff]
  refine and_congr_left fun _ => ?_
  cases r.state <;> simp

/-- What an account still expects, none when more was placed (R49). -/
theorem LotRecord.remaining_of_account {r : LotRecord} {a : Account} (h : r.account = some a) :
    (r.remaining : Int) = max 0 ((a.declared : Int) + a.adj - (a.placedMain : Int) + (a.voidOpen : Int)) := by
  simp only [LotRecord.remaining, h, Account.expected]
  omega

/-- Without an account, and with its summaries, a lot brings the in qty of its next insertion (R49). -/
theorem LotRecord.remaining_of_state {r : LotRecord} (h : r.account = none) (hst : r.state = .queued ∨ r.state = .inbound) :
    r.remaining = if r.nextInsertion = some 1 then r.entryQty else (r.summaries.getLast?.map (·.good)).getD 0 := by
  have hpending : (r.state == .inboundPending) = false := by rcases hst with hst | hst <;> rw [hst] <;> rfl
  simp [LotRecord.remaining, h, hpending, LotRecord.inQty, LotRecord.lastGood]

/-- A pending record whose summaries are missing counts with its entry qty (R49). -/
theorem LotRecord.remaining_of_missing {r : LotRecord} {n : Nat} (h : r.account = none) (hst : r.state = .inboundPending)
    (hn : r.nextInsertion = some n) (hs : r.summaries.length < n - 1) : r.remaining = r.entryQty := by
  simp [LotRecord.remaining, h, hst, hn, hs]

theorem Blocks.touchdownMs_of_ring {b : Blocks} {r : LotRecord} (c : Ctx) (hst : r.state = .inTest)
    (hring : 4 ≤ b.td.timerRing.length) : b.touchdownMs c r = b.td.timerRing.sum / b.td.timerRing.length := by
  simp [Blocks.touchdownMs, hst, hring, TdUnit.ringMean]

theorem Blocks.touchdownMs_nominal {b : Blocks} {r : LotRecord} (c : Ctx)
    (h : r.state ≠ .inTest ∨ b.td.timerRing.length < 4) : b.touchdownMs c r = (c.lotInsertion r).nominalMs := by
  refine if_neg ?_
  simpa [← imp_iff_not_or] using h

/-- The backlog is the saturated sum of the seconds of the contributing lots (R50). -/
theorem Blocks.backlog_eq (c : Ctx) (b : Blocks) : b.backlog c = min 65535 ((b.lots.filter b.contributes).map (fun r =>
    (((r.remaining + b.td.enabledCount - 1) / b.td.enabledCount) * b.touchdownMs c r + 999) / 1000)).sum := by
  have h := foldl_satAdd (fun r => lotSeconds r.remaining b.td.enabledCount (b.touchdownMs c r)) (b.lots.filter b.contributes) 0
    (Nat.zero_le _)
  rwa [Nat.zero_add] at h

/-! ## The projected setup (R51, R52) -/

theorem LotState.inCell_iff (st : LotState) : st.inCell = true ↔ st = .setup ∨ st = .inTest ∨ st = .closing := by
  cases st <;> decide

/-- The order of R51 among the lots that are not in the cell, ties left out: `x` comes before `y`. -/
def LotRecord.sooner (x y : LotRecord) : Prop :=
  x.priority < y.priority ∨ (x.priority = y.priority ∧
    ((x.state = .queued ∧ y.state ≠ .queued) ∨
     (x.state = .queued ∧ y.state = .queued ∧ (x.arrival.getD 0 < y.arrival.getD 0 ∨
       (x.arrival.getD 0 = y.arrival.getD 0 ∧ x.lot < y.lot))) ∨
     (x.state ≠ .queued ∧ y.state ≠ .queued ∧ x.lot < y.lot)))

theorem projectedLe_self (r : LotRecord) : projectedLe r r = true := by simp [projectedLe]

/-- The model's comparison sees the order of R51 both ways. -/
theorem projectedLe_of_sooner {x y : LotRecord} (h : x.sooner y) : projectedLe x y = true ∧ projectedLe y x = false := by
  obtain hp | ⟨hp, ⟨hx, hy⟩ | ⟨hx, hy, ha | ⟨ha, hl⟩⟩ | ⟨hx, hy, hl⟩⟩ := h
  · simp [projectedLe, hp, hp.ne, hp.ne', hp.le]
  · simp [projectedLe, hp, hx, hy]
  · simp [projectedLe, hp, hx, hy, ha, ha.ne, ha.ne', ha.le]
  · simp [projectedLe, hp, hx, hy, ha, hl, hl.le]
  · simp [projectedLe, hp, beq_false_of_ne hx, beq_false_of_ne hy, bne, hl, hl.le]

/-- The lot in the cell comes first, the others in their order (R51). -/
theorem Blocks.committedOrder_eq (b : Blocks) : b.committedOrder = (b.lots.filter b.contributes).filter (fun r => r.state.inCell) ++
    sortBy projectedLe ((b.lots.filter b.contributes).filter (fun r => !r.state.inCell)) := rfl

/-- The lots of the order are the contributing ones. -/
theorem Blocks.mem_committedOrder {b : Blocks} {r : LotRecord} : r ∈ b.committedOrder ↔ r ∈ b.lots.filter b.contributes := by
  rw [Blocks.committedOrder_eq, List.mem_append, (sortBy_perm _ _).mem_iff, List.mem_filter (p := fun r : LotRecord => r.state.inCell),
    List.mem_filter (p := fun r : LotRecord => !r.state.inCell), ← and_or_left]
  cases r.state.inCell <;> simp

theorem Blocks.committedOrder_eq_nil {b : Blocks} (h : b.lots.filter b.contributes = []) : b.committedOrder = [] := by
  refine List.eq_nil_iff_forall_not_mem.2 fun r hr => ?_
  rw [Blocks.mem_committedOrder, h] at hr
  exact List.not_mem_nil hr

/-- The contributing lot that all others come before is the last of the order: a lot in the cell only when it is alone (R51). -/
theorem Blocks.committedOrder_getLast? {b : Blocks} {r : LotRecord} (hr : r ∈ b.lots.filter b.contributes)
    (h : ∀ x ∈ b.lots.filter b.contributes, x ≠ r → r.state.inCell = false ∧ (x.state.inCell = true ∨ x.sooner r)) :
    b.committedOrder.getLast? = some r := by
  cases hcell : r.state.inCell with
  | true =>
    have halone : ∀ x ∈ b.committedOrder, x = r := fun x hx => by_contra fun hne => by
      simp [(h x (Blocks.mem_committedOrder.1 hx) hne).1] at hcell
    have hne : b.committedOrder ≠ [] := List.ne_nil_of_mem (Blocks.mem_committedOrder.2 hr)
    rw [List.getLast?_eq_some_getLast hne, halone _ (List.getLast_mem hne)]
  | false =>
    have hlast : (sortBy projectedLe ((b.lots.filter b.contributes).filter (fun r => !r.state.inCell))).getLast? = some r := by
      refine sortBy_getLast? (List.mem_filter.2 ⟨hr, by simp [hcell]⟩) (projectedLe_self r) fun x hx hne => ?_
      obtain ⟨hmem, hout⟩ := List.mem_filter.1 hx
      exact projectedLe_of_sooner ((h x hmem hne).2.resolve_left (by simpa using hout))
    rw [Blocks.committedOrder_eq, List.getLast?_append, hlast, Option.some_or]

theorem SetupUnit.mem_residentPrograms (u : SetupUnit) (p : Nat) :
    p ∈ u.residentPrograms ↔ ∃ x ∈ u.slots, x.state = .resident ∧ x.program = some p := by
  simp [SetupUnit.residentPrograms]

/-- With no contributing lot the projected setup is the present one (R52). -/
theorem Blocks.projected_of_none (c : Ctx) {b : Blocks} (h : b.lots.filter b.contributes = []) : b.projected c =
    ⟨if b.setup.thermal.phase = .ready then b.setup.thermal.band else none, b.setup.kitTaken, b.setup.residentPrograms⟩ := by
  simp [Blocks.projected, Blocks.committedOrder_eq_nil h]

/-- The last lot of the order gives band and kit, all of them their programs (R52). -/
theorem Blocks.projected_of_getLast? (c : Ctx) {b : Blocks} {r : LotRecord} (h : b.committedOrder.getLast? = some r) :
    b.projected c = ⟨r.nextStep?.map (·.band), (c.recipe r.product).packageClass,
      b.setup.residentPrograms ++ b.committedOrder.map LotRecord.program⟩ := by
  simp only [Blocks.projected, h]

theorem Blocks.projected_programs (c : Ctx) (b : Blocks) :
    (b.projected c).programs = b.setup.residentPrograms ++ b.committedOrder.map LotRecord.program := by
  cases h : b.committedOrder.getLast? with
  | some r => rw [Blocks.projected_of_getLast? c h]
  | none => simp [Blocks.projected, List.getLast?_eq_none_iff.1 h]

theorem Blocks.mem_projected_programs (c : Ctx) (b : Blocks) (p : Nat) : p ∈ (b.projected c).programs ↔
    (∃ x ∈ b.setup.slots, x.state = .resident ∧ x.program = some p) ∨ ∃ r ∈ b.lots.filter b.contributes, r.program = p := by
  simp only [Blocks.projected_programs, List.mem_append, SetupUnit.mem_residentPrograms, List.mem_map, Blocks.mem_committedOrder]

/-! ## The changeover estimate (R53, R54) -/

/-- The walk adds the amounts of a chain of at most `k` records, and finds none in a longer one (R53). -/
theorem changeover_chain (c : Ctx) (u : SetupUnit) (p : Projected) (ins : RecipeInsertion) (kit k : Nat) (chain : List Nat)
    (acc : Nat) (hacc : acc ≤ 65535)
    (hchain : ∀ i n, i < k → chain[i]? = some n → (c.stepRecord n).next = chain[i + 1]?) :
    changeover c u p ins kit k chain.head? acc = if chain.length ≤ k then
      some (min 65535 (acc + (chain.map (fun n => stepAmount c u p ins kit (c.stepRecord n))).sum)) else none := by
  induction k generalizing chain acc with
  | zero =>
    cases chain with
    | nil => simpa [changeover] using hacc
    | cons n rest => simp [changeover]
  | succ k ih =>
    cases chain with
    | nil => simpa [changeover] using hacc
    | cons n rest =>
      have hnext : (c.stepRecord n).next = rest.head? := by
        rw [hchain 0 n k.succ_pos rfl, List.getElem?_cons_succ, List.head?_eq_getElem?]
      have hrest : ∀ i m, i < k → rest[i]? = some m → (c.stepRecord m).next = rest[i + 1]? :=
        fun i m hi hm => hchain (i + 1) m (Nat.succ_lt_succ hi) hm
      have hsat : satAdd acc (stepAmount c u p ins kit (c.stepRecord n)) =
        min 65535 (acc + stepAmount c u p ins kit (c.stepRecord n)) := rfl
      rw [List.head?_cons, changeover, hnext, ih rest _ (by omega) hrest, List.length_cons, List.map_cons, List.sum_cons]
      simp only [Nat.add_le_add_iff_right]
      congr 2
      omega

theorem SetupUnit.slot?_eq_some_iff (u : SetupUnit) (n : Nat) (q : ProgSlot) :
    u.slot? n = some q ↔ 1 ≤ n ∧ u.slots[n - 1]? = some q := by
  simp [SetupUnit.slot?, Nat.one_le_iff_ne_zero]

/-- When a correlation is fresh (R54, R97). -/
theorem SetupUnit.correlationFresh_iff (u : SetupUnit) (now program hours : Nat) : u.correlationFresh now program hours = true ↔
    hours ≠ 0 ∧ ∃ (n : Nat) (q : ProgSlot) (t : Nat), 1 ≤ n ∧ u.active = some n ∧ u.slots[n - 1]? = some q ∧ q.state = .resident ∧
      q.program = some program ∧ q.correlated = some t ∧ now ≤ t + hours * 3600000 := by
  unfold SetupUnit.correlationFresh
  rw [Bool.and_eq_true, bne_iff_ne]
  refine and_congr_right fun _ => ⟨fun h => ?_, ?_⟩
  · cases hn : u.active with
    | none => simp [hn] at h
    | some n =>
      cases hq : u.slot? n with
      | none => simp [hn, hq] at h
      | some q =>
        cases ht : q.correlated with
        | none => simp [hn, hq, ht] at h
        | some t =>
          obtain ⟨⟨hst, hp⟩, hle⟩ : (q.state = .resident ∧ q.program = some program) ∧ now ≤ t + hours * 3600000 := by
            simpa [hn, hq, ht] using h
          obtain ⟨h1, hslot⟩ := (u.slot?_eq_some_iff n q).1 hq
          exact ⟨n, q, t, h1, rfl, hslot, hst, hp, ht, hle⟩
  · rintro ⟨n, q, t, h1, hn, hslot, hst, hp, ht, hle⟩
    have hq := (u.slot?_eq_some_iff n q).2 ⟨h1, hslot⟩
    simp [hn, hq, hst, hp, ht, hle]

section
variable (c : Ctx) (u : SetupUnit) (p : Projected) (ins : RecipeInsertion) (kit : Nat) {st : StepRecord}

/-- A step whose estimate is 0 is skipped (R54). -/
theorem stepAmount_of_no_estimate (he : st.estimate = 0) : stepAmount c u p ins kit st = 0 := by
  simp [stepAmount, he]

/-- LOAD_PROGRAM is skipped when its program is projected (R54). -/
theorem stepAmount_loadProgram (he : st.estimate ≠ 0) (hk : st.kind = some .loadProgram) : stepAmount c u p ins kit st =
    if (if st.param = 0 then ins.program else st.param) ∈ p.programs then 0 else st.estimate := by
  simp [stepAmount, he, hk, stepProgram]

/-- CONFIRM_KIT is skipped when its kit is the projected one (R54). -/
theorem stepAmount_confirmKit (he : st.estimate ≠ 0) (hk : st.kind = some .confirmKit) : stepAmount c u p ins kit st =
    if p.kit = (if st.param = 0 then kit else st.param) then 0 else st.estimate := by
  simp [stepAmount, he, hk, stepKit]

/-- CORRELATE is skipped when the program's correlation is fresh (R54). -/
theorem stepAmount_correlate (he : st.estimate ≠ 0) (hk : st.kind = some .correlate) : stepAmount c u p ins kit st =
    if u.correlationFresh c.now ins.program st.param then 0 else st.estimate := by
  simp [stepAmount, he, hk]

/-- WAIT_OPERATOR is never skipped (R54). -/
theorem stepAmount_waitOperator (he : st.estimate ≠ 0) (hk : st.kind = some .waitOperator) :
    stepAmount c u p ins kit st = st.estimate := by
  simp [stepAmount, he, hk]

/-- SET_BAND costs the transition and the soak, and is skipped when the projected band is its target (R54). -/
theorem stepAmount_setBand (he : st.estimate ≠ 0) (hk : st.kind = some .setBand) : stepAmount c u p ins kit st =
    if p.band = some (stepBand st ins.band) then 0
    else min 65535 (c.transitionTo p.band (stepBand st ins.band) + ins.soakMinutes * 60) := by
  simp [stepAmount, he, hk, satAdd, Config.costLimit]

end

/-- Settles O38: each clause is a rule of the model's cost functions, stated above in the order of R49 to R54. -/
theorem backlogAndProjectedSetup : Obligations.BacklogAndProjectedSetup := by
  unfold Obligations.BacklogAndProjectedSetup
  intro c b
  refine ⟨Blocks.backlog_eq c b, fun hnone => ?_, Blocks.mem_projected_programs c b, fun r hr _ hlast => ?_,
    fun u p ins kit chain hchain => ?_, fun u p ins kit st => ⟨stepAmount_of_no_estimate c u p ins kit, fun he =>
      ⟨stepAmount_loadProgram c u p ins kit he, fun hk => ?_, stepAmount_confirmKit c u p ins kit he, fun hk => ?_,
        stepAmount_waitOperator c u p ins kit he⟩⟩,
    Blocks.contributes_iff b, fun _ _ => LotRecord.remaining_of_account, fun _ => LotRecord.remaining_of_state,
    fun _ _ => LotRecord.remaining_of_missing, fun _ => Blocks.touchdownMs_of_ring c, fun _ => Blocks.touchdownMs_nominal c⟩
  -- no lot contributes
  · have hproj := Blocks.projected_of_none c hnone
    refine ⟨by rw [Blocks.backlog_eq, hnone]; rfl, by rw [hproj], by rw [hproj], fun p => ?_⟩
    rw [hproj, SetupUnit.mem_residentPrograms]
  -- the last lot of the order
  · have hget : b.committedOrder.getLast? = some r := by
      refine Blocks.committedOrder_getLast? hr fun x hx hne => ?_
      rw [← Bool.not_eq_true, LotState.inCell_iff, LotState.inCell_iff]
      exact hlast x hx hne
    rw [Blocks.projected_of_getLast? c hget]
    exact ⟨rfl, rfl⟩
  -- the chain
  · simpa using changeover_chain c u p ins kit 16 chain 0 (Nat.zero_le _) hchain
  -- SET_BAND
  · have hamount := stepAmount_setBand c u p ins kit he hk
    refine ⟨fun hp => hamount.trans (if_pos hp), fun a hp hne => ?_, fun hp => ?_⟩ <;> rw [hp] at hamount
    · exact hamount.trans (if_neg fun h => hne (Option.some.inj h))
    · exact hamount.trans (if_neg (Option.some_ne_none _).symm)
  -- CORRELATE
  · rw [stepAmount_correlate c u p ins kit he hk]
    exact ⟨fun hfresh => if_pos ((SetupUnit.correlationFresh_iff ..).2 hfresh),
      fun hstale => if_neg fun h => hstale ((SetupUnit.correlationFresh_iff ..).1 h)⟩

end Sys2Proof.Machine
end
